-- ==== Sys2Proof/Word.lean ====
section
/-! DEFINITION. The two word types of the block (spec 00_scope R5): a byte of the wire and a 16-bit word. -/

namespace Sys2Proof

/-- R5: a byte is 8 bits, unsigned. -/
abbrev Byte := BitVec 8

/-- R5: a word is 16 bits, unsigned. -/
abbrev Word := BitVec 16

end Sys2Proof
end

