-- ==== Sys2Proof/Config.lean ====
section
/-! DEFINITION. What an implementation fixes (the parameters of spec 00_scope section 3, R4, R22), the names they
are indexed by, and the free values of the environment. The defaults of the parameters stand in Machine/Catalog.lean. -/

namespace Sys2Proof

/-- The eleven catalog commands, in the order of their catalog index (R21, 41_catalog section 1). -/
inductive Cmd where
  | iaqInit
  | measureIaq
  | getIaqBaseline
  | setIaqBaseline
  | setAbsoluteHumidity
  | measureTest
  | getFeatureSet
  | measureRaw
  | getTvocInceptiveBaseline
  | setTvocBaseline
  | getSerialId
  deriving DecidableEq, Repr, Inhabited

/-- The measurement phases (R10). `PHASE` itself is a 3-bit register; this is what its legal codes mean. -/
inductive Phase where
  | unprobed
  | probed
  | iaqInitialized
  | measurementInFlight
  | resultReady
  deriving DecidableEq, Repr, Inhabited

/-- What is measured (R11, R141); all four codes of the 2-bit register `KIND` are legal. -/
inductive Kind where
  | iaq
  | tvoc
  | co2eq
  | raw
  deriving DecidableEq, Repr, Inhabited

/-- The states of the transaction FSM (R12). -/
inductive Txn where
  | idle
  | check
  | write
  | wait
  | read
  | verify
  deriving DecidableEq, Repr, Inhabited

/-- One of the two word positions of a two-word frame: how `P_IAQ_MAP`, `P_RAW_MAP` and `P_SETBASE_ORDER` are given. -/
inductive WirePos where
  | first
  | second
  deriving DecidableEq, Repr, Inhabited

/-- The four wire fields of a catalog entry (R21, R4). The types hold R4's bounds: `P_NARG` in 0 to 2, `P_NRESP` in 0 to 3,
a 16-bit opcode, a wait of `T_WAIT`'s 32 bits (R13). -/
structure CatalogEntry where
  opcode : Word
  nArg   : Fin 3
  nResp  : Fin 4
  waitUs : BitVec 32
  deriving DecidableEq, Repr, Inhabited

/-- The catalog ROM (R21): one entry for each command. -/
structure Catalog where
  iaqInit                  : CatalogEntry
  measureIaq               : CatalogEntry
  getIaqBaseline           : CatalogEntry
  setIaqBaseline           : CatalogEntry
  setAbsoluteHumidity      : CatalogEntry
  measureTest              : CatalogEntry
  getFeatureSet            : CatalogEntry
  measureRaw               : CatalogEntry
  getTvocInceptiveBaseline : CatalogEntry
  setTvocBaseline          : CatalogEntry
  getSerialId              : CatalogEntry
  deriving DecidableEq, Repr, Inhabited

/-- `P_HUM_SCALE` as plain data (R4, R130): `floor (v * mul / 2 ^ shift)`, but for the finitely many values of `v` that
`special` lists. Every map of `[0, 256000]` into 16 bits has this form. DESIGN CHOICE, log 14, safe. -/
structure HumScale where
  mul     : Nat
  shift   : Nat
  special : List (Nat × Word)
  deriving DecidableEq, Repr, Inhabited

/-- The parameters of 00_scope section 3 (R4): read-only configuration, fixed for a session (R22). -/
structure Params where
  addr          : BitVec 7
  catalog       : Catalog
  testPass      : Word
  fsThreshold   : Byte
  humScale      : HumScale
  /-- `P_IAQ_MAP`: the wire position of the TVOC word; CO2eq is the other one (R141). -/
  iaqTvocAt     : WirePos
  /-- `P_RAW_MAP`: the wire position of the ethanol word; H2 is the other one (R141). -/
  rawEthanolAt  : WirePos
  /-- `P_SETBASE_ORDER`: which argument is the TVOC baseline; the CO2eq baseline is the other one (R83). -/
  setBaseTvocAt : WirePos
  deriving DecidableEq, Repr, Inhabited

/-- What `BusWrite` returns (00_scope section 4, R109). -/
inductive WriteResult where
  | ack
  | nack
  | ioerr
  deriving DecidableEq, Repr, Inhabited

/-- What `BusRead` returns (00_scope section 4, R109): a byte sequence of any length, or a failure. -/
inductive ReadResult where
  | bytes (bs : List Byte)
  | nack
  | ioerr
  deriving DecidableEq, Repr, Inhabited

/-- One answer of the transport to a write, and the microseconds the call took (R182: time only moves forward). -/
structure WriteAnswer where
  result : WriteResult
  dt     : Nat
  deriving DecidableEq, Repr, Inhabited

/-- One answer of the transport to a read, and the microseconds the call took. -/
structure ReadAnswer where
  result : ReadResult
  dt     : Nat
  deriving DecidableEq, Repr, Inhabited

/-! The environment's free values (R3, R24, R198; 93 I1, I12). Each is read at a counter that every port call advances
(`Env.calls`), and only where `State` holds no queued answer: nothing in Lean can tell what it is. Log 4, safe. -/

/-- What the transport answers to the `n`-th port call when that call is a write. -/
opaque Config.freeWriteAnswer : Nat → WriteAnswer

/-- What the transport answers to the `n`-th port call when that call is a read. -/
opaque Config.freeReadAnswer : Nat → ReadAnswer

/-- By how much the `n`-th port call oversleeps when that call is the last `Sleep` of a wait (R198: no upper bound; fewer
than `2 ^ 63` microseconds, since R182 lets no session last `2 ^ 64`; log 7). -/
opaque Config.freeOversleep : Nat → BitVec 63

end Sys2Proof
end

