-- ==== Sys2Proof/Machine/Catalog.lean ====
section
/-! DEFINITION. The catalog ROM as the rules read it (spec 41_catalog R91, R93), the codes of the phases and kinds
(10_state R10, R11), and the default parameters (00_scope section 3). -/

namespace Sys2Proof

/-- All commands in catalog order (R21). -/
def Cmd.all : List Cmd :=
  [.iaqInit, .measureIaq, .getIaqBaseline, .setIaqBaseline, .setAbsoluteHumidity, .measureTest, .getFeatureSet,
   .measureRaw, .getTvocInceptiveBaseline, .setTvocBaseline, .getSerialId]

/-- The catalog index `c` (41_catalog section 1). -/
def Cmd.index : Cmd → Nat
  | .iaqInit => 0
  | .measureIaq => 1
  | .getIaqBaseline => 2
  | .setIaqBaseline => 3
  | .setAbsoluteHumidity => 4
  | .measureTest => 5
  | .getFeatureSet => 6
  | .measureRaw => 7
  | .getTvocInceptiveBaseline => 8
  | .setTvocBaseline => 9
  | .getSerialId => 10

/-- R10: the code of a phase. -/
def Phase.bits : Phase → BitVec 3
  | .unprobed => 0
  | .probed => 1
  | .iaqInitialized => 2
  | .measurementInFlight => 3
  | .resultReady => 4

/-- R10: the phase of a code; the codes 5, 6 and 7 are never written and mean none. -/
def Phase.ofBits (b : BitVec 3) : Option Phase :=
  if b = 0 then some .unprobed
  else if b = 1 then some .probed
  else if b = 2 then some .iaqInitialized
  else if b = 3 then some .measurementInFlight
  else if b = 4 then some .resultReady
  else none

/-- R11: the code of a kind. -/
def Kind.bits : Kind → BitVec 2
  | .iaq => 0
  | .tvoc => 1
  | .co2eq => 2
  | .raw => 3

/-- R141: the catalog entry a kind is measured with. -/
def Kind.cmd : Kind → Cmd
  | .iaq => .measureIaq
  | .tvoc => .measureIaq
  | .co2eq => .measureIaq
  | .raw => .measureRaw

/-- R93: the wire fields of entry `c`. -/
def Catalog.entry (cat : Catalog) : Cmd → CatalogEntry
  | .iaqInit => cat.iaqInit
  | .measureIaq => cat.measureIaq
  | .getIaqBaseline => cat.getIaqBaseline
  | .setIaqBaseline => cat.setIaqBaseline
  | .setAbsoluteHumidity => cat.setAbsoluteHumidity
  | .measureTest => cat.measureTest
  | .getFeatureSet => cat.getFeatureSet
  | .measureRaw => cat.measureRaw
  | .getTvocInceptiveBaseline => cat.getTvocInceptiveBaseline
  | .setTvocBaseline => cat.setTvocBaseline
  | .getSerialId => cat.getSerialId

/-- R91: `ALLOWED_PHASE[c]`, the column of 41_catalog section 1. It is fixed, no parameter (D10). -/
def Cmd.allowedPhase : Cmd → List Phase
  | .iaqInit => [.probed, .iaqInitialized]
  | .measureIaq => [.iaqInitialized]
  | .getIaqBaseline => [.iaqInitialized]
  | .setIaqBaseline => [.iaqInitialized]
  | .setAbsoluteHumidity => [.iaqInitialized]
  | .measureTest => [.unprobed, .probed, .iaqInitialized]
  | .getFeatureSet => [.unprobed, .probed, .iaqInitialized]
  | .measureRaw => [.iaqInitialized]
  | .getTvocInceptiveBaseline => [.iaqInitialized]
  | .setTvocBaseline => [.iaqInitialized]
  | .getSerialId => [.unprobed, .probed, .iaqInitialized]

/-- R91: `FS_GATE[c]`, the column of 41_catalog section 1. It is fixed, no parameter (D13). -/
def Cmd.fsGate : Cmd → Bool
  | .getTvocInceptiveBaseline => true
  | .setTvocBaseline => true
  | .iaqInit => false
  | .measureIaq => false
  | .getIaqBaseline => false
  | .setIaqBaseline => false
  | .setAbsoluteHumidity => false
  | .measureTest => false
  | .getFeatureSet => false
  | .measureRaw => false
  | .getSerialId => false

/-- The six fields that `Catalog(c)` returns (R93). -/
structure CatalogRecord where
  opcode       : Word
  nArg         : Fin 3
  nResp        : Fin 4
  waitUs       : BitVec 32
  allowedPhase : List Phase
  fsGate       : Bool
  deriving DecidableEq, Repr

/-- R93: `Catalog(c)`, a pure read of the ROM. -/
def Catalog.lookup (cat : Catalog) (c : Cmd) : CatalogRecord :=
  { opcode := (cat.entry c).opcode, nArg := (cat.entry c).nArg, nResp := (cat.entry c).nResp,
    waitUs := (cat.entry c).waitUs, allowedPhase := c.allowedPhase, fsGate := c.fsGate }

/-- The command that a wire opcode selects (R31): the first entry that holds it. -/
def Catalog.ofOpcode (cat : Catalog) (op : Word) : Option Cmd :=
  Cmd.all.find? fun c => decide ((cat.entry c).opcode = op)

/-- No two entries of the catalog share an opcode. R4 does not ask for it; the decoding of a frame needs it. -/
def Catalog.opcodesDistinct (cat : Catalog) : Bool :=
  decide (Cmd.all.map fun c => (cat.entry c).opcode).Nodup

/-- The value of `P_HUM_SCALE` at `v` (R130). -/
def HumScale.apply (h : HumScale) (v : Nat) : Word :=
  match h.special.lookup v with
  | some w => w
  | none => BitVec.ofNat 16 ((v * h.mul) >>> h.shift)

/-- R4: `P_HUM_SCALE` maps `[0, 256000]` into `[0, 0xFFFF]`. The other bounds of R4 are held by the types. -/
def Params.wf (p : Params) : Bool := decide ((256000 * p.humScale.mul) >>> p.humScale.shift ≤ 0xFFFF)

/-- The default catalog (41_catalog section 1, R80 to R90). PRESUMED, log 13: the spec marks every value as general knowledge. -/
def Catalog.default : Catalog where
  iaqInit                  := { opcode := 0x2003, nArg := 0, nResp := 0, waitUs := 10000 }
  measureIaq               := { opcode := 0x2008, nArg := 0, nResp := 2, waitUs := 12000 }
  getIaqBaseline           := { opcode := 0x2015, nArg := 0, nResp := 2, waitUs := 10000 }
  setIaqBaseline           := { opcode := 0x201E, nArg := 2, nResp := 0, waitUs := 10000 }
  setAbsoluteHumidity      := { opcode := 0x2061, nArg := 1, nResp := 0, waitUs := 10000 }
  measureTest              := { opcode := 0x2032, nArg := 0, nResp := 1, waitUs := 220000 }
  getFeatureSet            := { opcode := 0x202F, nArg := 0, nResp := 1, waitUs := 10000 }
  measureRaw               := { opcode := 0x2050, nArg := 0, nResp := 2, waitUs := 25000 }
  getTvocInceptiveBaseline := { opcode := 0x20B3, nArg := 0, nResp := 1, waitUs := 10000 }
  setTvocBaseline          := { opcode := 0x2077, nArg := 1, nResp := 0, waitUs := 10000 }
  getSerialId              := { opcode := 0x3682, nArg := 0, nResp := 3, waitUs := 500 }

/-- The default parameters (00_scope section 3). PRESUMED, log 13. -/
def Params.default : Params where
  addr          := 0x58
  catalog       := Catalog.default
  testPass      := 0xD400
  fsThreshold   := 0x20
  humScale      := { mul := 4294912, shift := 24, special := [] }
  iaqTvocAt     := .second
  rawEthanolAt  := .second
  setBaseTvocAt := .first

end Sys2Proof
end

