-- ==== Sys2Proof/Machine/Checksum.lean ====
section
/-! DEFINITION. The CRC unit's function and the word triple (spec 40_checksum R70, R71; 30_encoding R50, R56; 20_memory
R33). The register `CRC_REG` it works in belongs to State and is written in Machine/Ops.lean. -/

namespace Sys2Proof.Machine

/-- R33: the byte of a word that goes on the wire first. -/
def hiByte (w : Word) : Byte := w.extractLsb' 8 8

/-- R33: the byte of a word that goes on the wire second. -/
def loByte (w : Word) : Byte := w.extractLsb' 0 8

/-- R33, R56: the word that a byte pair stands for, the high byte first. -/
def wordOf (hi lo : Byte) : Word := hi ++ lo

/-- One turn of R70's inner loop: shift out the top bit, and fold the polynomial `0x31` in where that bit was 1. -/
def crcBit (r : Byte) : Byte := if r.msb then (r <<< 1) ^^^ 0x31#8 else r <<< 1

/-- R70's step for one byte: fold it in, then eight turns of the inner loop. -/
def crcByte (r b : Byte) : Byte :=
  crcBit (crcBit (crcBit (crcBit (crcBit (crcBit (crcBit (crcBit (r ^^^ b))))))))

/-- R70: `CRC8(b0, b1)`, from the initial value `0xFF`, with no reflection and no final XOR. -/
def crc8 (b0 b1 : Byte) : Byte := crcByte (crcByte 0xFF#8 b0) b1

/-- R71: `Verify(b0, b1, c)`, a comparison of all eight bits. -/
def verify (b0 b1 c : Byte) : Bool := crc8 b0 b1 == c

/-- R50: the word triple `T(w)`. -/
def triple (w : Word) : List Byte := [hiByte w, loByte w, crc8 (hiByte w) (loByte w)]

/-- The triples of several words, in ascending index order (R34). -/
def triples (ws : List Word) : List Byte := (ws.map triple).flatten

end Sys2Proof.Machine
end

