-- ==== Sys2Proof/Machine/Flags.lean ====
section
/-! DEFINITION. The flags of the block: the fields of `STATUS` (spec 10_state R17), the errors and their codes
(60_exceptions R170), and the word that a raise writes (R176). -/

namespace Sys2Proof.Machine

/-- How a transport call fails (R109, R172). -/
inductive CommFailure where
  | nack
  | ioerr
  deriving DecidableEq, Repr

/-- The errors of R170, one constructor for each row of its table (a `CommunicationError` once for each stage). -/
inductive Error where
  | humidityRange
  | argWidth
  | commWrite (f : CommFailure)
  | commRead (f : CommFailure)
  | crcMismatch (widx : Fin 3)
  | sequencing
  | wordCount
  | featureSet
  | illegalRequest
  | inFlight
  | earlyRead
  deriving DecidableEq, Repr

/-- `ERR_KIND` (R170). -/
def Error.kindCode : Error → BitVec 4
  | .humidityRange => 1
  | .argWidth => 1
  | .commWrite _ => 2
  | .commRead _ => 2
  | .crcMismatch _ => 3
  | .sequencing => 4
  | .wordCount => 4
  | .featureSet => 4
  | .illegalRequest => 4
  | .inFlight => 4
  | .earlyRead => 5

/-- `ERR_SUB` of a failed transport call (R170). -/
def CommFailure.subCode : CommFailure → BitVec 4
  | .nack => 1
  | .ioerr => 2

/-- `ERR_SUB` (R170). -/
def Error.subCode : Error → BitVec 4
  | .humidityRange => 1
  | .argWidth => 2
  | .commWrite f => f.subCode
  | .commRead f => f.subCode
  | .crcMismatch _ => 1
  | .sequencing => 1
  | .wordCount => 2
  | .featureSet => 3
  | .illegalRequest => 4
  | .inFlight => 5
  | .earlyRead => 1

/-- `ERR_WIDX` (R170, R173): the first failing word of a `DataCorruptionError`, otherwise 0. -/
def Error.widxCode : Error → BitVec 2
  | .crcMismatch i => BitVec.ofNat 2 i.val
  | .humidityRange => 0
  | .argWidth => 0
  | .commWrite _ => 0
  | .commRead _ => 0
  | .sequencing => 0
  | .wordCount => 0
  | .featureSet => 0
  | .illegalRequest => 0
  | .inFlight => 0
  | .earlyRead => 0

/-- `ERR_STAGE` (R170, R176): 1 in the write path, 2 in the read path, 0 before any bus I/O. -/
def Error.stageCode : Error → BitVec 2
  | .commWrite _ => 1
  | .commRead _ => 2
  | .crcMismatch _ => 2
  | .wordCount => 2
  | .humidityRange => 0
  | .argWidth => 0
  | .sequencing => 0
  | .featureSet => 0
  | .illegalRequest => 0
  | .inFlight => 0
  | .earlyRead => 0

/-- R176: the value a raise writes to `STATUS`. -/
def statusOf (e : Error) : Word :=
  (e.stageCode.setWidth 16 <<< 10) ||| (e.widxCode.setWidth 16 <<< 8) ||| (e.subCode.setWidth 16 <<< 4) |||
    e.kindCode.setWidth 16

/-- R17: `STATUS[3:0]`. -/
def errKind (st : Word) : BitVec 4 := st.extractLsb' 0 4

/-- R17: `STATUS[7:4]`. -/
def errSub (st : Word) : BitVec 4 := st.extractLsb' 4 4

/-- R17: `STATUS[9:8]`. -/
def errWidx (st : Word) : BitVec 2 := st.extractLsb' 8 2

/-- R17: `STATUS[11:10]`. -/
def errStage (st : Word) : BitVec 2 := st.extractLsb' 10 2

/-- R17: `STATUS[15:12]`, always 0. -/
def statusReserved (st : Word) : BitVec 4 := st.extractLsb' 12 4

/-- R17, R170: the fields of a `STATUS` that some rule writes. -/
def legalStatus (st : Word) : Bool :=
  statusReserved st == 0 &&
    (match (errKind st).toNat with
     | 0 => errSub st == 0 && errWidx st == 0 && errStage st == 0
     | 1 => (errSub st == 1 || errSub st == 2) && errWidx st == 0 && errStage st == 0
     | 2 => (errSub st == 1 || errSub st == 2) && errWidx st == 0 && (errStage st == 1 || errStage st == 2)
     | 3 => errSub st == 1 && decide (errWidx st ≠ 3) && errStage st == 2
     | 4 =>
       errWidx st == 0 &&
         ((errSub st == 2 && errStage st == 2) ||
          ((errSub st == 1 || errSub st == 3 || errSub st == 4 || errSub st == 5) && errStage st == 0))
     | 5 => errSub st == 1 && errWidx st == 0 && errStage st == 0
     | _ => false)

end Sys2Proof.Machine
end

