-- ==== Sys2Proof/Syntax.lean ====
section
/-! DEFINITION. The instructions: one constructor for every row of spec/opcode_table.json. The first eleven are the wire
commands of the catalog ROM (41_catalog R80 to R90), the next 24 the host requests of 30_encoding R57, the last the
reserved request codes of R60. -/

namespace Sys2Proof

/-- The argument words of a command frame, in the order they have in it (R34): the first and the second, each `none` where the
format of the frame (R51) has no such word. Checksum bytes are no operands, since R50 fixes them. -/
def argWords (arg0 arg1 : Option Word) : List Word := arg0.toList ++ arg1.toList

/-- An instruction of the block.

A wire command carries the argument words of its frame; how many they are is no property of the command, since its catalog
entry says so (`P_NARG`, R4, R54). A request carries the operands it uses, whole and unchecked (R57, R58: `A0` is 32 bits,
`A1` 16 bits, and the width checks belong to the request's meaning). -/
inductive Instr where
  -- wire commands, in catalog order
  | cmdIaqInit (arg0 arg1 : Option Word := none)
  | cmdMeasureIaq (arg0 arg1 : Option Word := none)
  | cmdGetIaqBaseline (arg0 arg1 : Option Word := none)
  | cmdSetIaqBaseline (arg0 arg1 : Option Word := none)
  | cmdSetAbsoluteHumidity (arg0 arg1 : Option Word := none)
  | cmdMeasureTest (arg0 arg1 : Option Word := none)
  | cmdGetFeatureSet (arg0 arg1 : Option Word := none)
  | cmdMeasureRaw (arg0 arg1 : Option Word := none)
  | cmdGetTvocInceptiveBaseline (arg0 arg1 : Option Word := none)
  | cmdSetTvocBaseline (arg0 arg1 : Option Word := none)
  | cmdGetSerialId (arg0 arg1 : Option Word := none)
  -- host requests, in the order of their codes 0x00 to 0x17
  | probe
  | getSerialId
  | getFeatureSetVersion
  | iaqInit
  | measureIaq
  | readIaq
  | measureIaqBlockingRead
  | getIaqBaseline
  | setIaqBaseline (a0 : BitVec 32) (a1 : BitVec 16)
  | getTvocInceptiveBaseline
  | setTvocBaseline (a0 : BitVec 32)
  | measureTvoc
  | readTvoc
  | measureTvocBlockingRead
  | measureCo2Eq
  | readCo2Eq
  | measureCo2EqBlockingRead
  | measureRaw
  | readRaw
  | measureRawBlockingRead
  | measureTest
  | setAbsoluteHumidity (a0 : BitVec 32)
  | crcCompute (a0 : BitVec 32)
  | crcVerify (a0 : BitVec 32) (a1 : BitVec 16)
  /-- A reserved request code (R60): `0x18` to `0xFF`. -/
  | reserved (code : BitVec 8)
  deriving DecidableEq, Repr

end Sys2Proof
end

