-- ==== Sys2Proof/WellFormed.lean ====
section
/-! DEFINITION. Which instructions have an encoding under a catalog: a wire command has the format of its catalog entry (spec
30_encoding R51, R54), and a reserved code is reserved (R60). Every other operand fills its field. -/

namespace Sys2Proof

/-- R51, R54: the frame has the format that `P_NARG` of its entry chooses, `C0`, `C1` or `C2`. -/
def CatalogEntry.fits (e : CatalogEntry) (arg0 arg1 : Option Word) : Bool :=
  match e.nArg with
  | 0 => arg0.isNone && arg1.isNone
  | 1 => arg0.isSome && arg1.isNone
  | 2 => arg0.isSome && arg1.isSome

/-- R51, R54, R60; R57 gives every code below `0x18` to a request. -/
def Instr.wellFormed (cat : Catalog) : Instr → Bool
  | .cmdIaqInit arg0 arg1 => cat.iaqInit.fits arg0 arg1
  | .cmdMeasureIaq arg0 arg1 => cat.measureIaq.fits arg0 arg1
  | .cmdGetIaqBaseline arg0 arg1 => cat.getIaqBaseline.fits arg0 arg1
  | .cmdSetIaqBaseline arg0 arg1 => cat.setIaqBaseline.fits arg0 arg1
  | .cmdSetAbsoluteHumidity arg0 arg1 => cat.setAbsoluteHumidity.fits arg0 arg1
  | .cmdMeasureTest arg0 arg1 => cat.measureTest.fits arg0 arg1
  | .cmdGetFeatureSet arg0 arg1 => cat.getFeatureSet.fits arg0 arg1
  | .cmdMeasureRaw arg0 arg1 => cat.measureRaw.fits arg0 arg1
  | .cmdGetTvocInceptiveBaseline arg0 arg1 => cat.getTvocInceptiveBaseline.fits arg0 arg1
  | .cmdSetTvocBaseline arg0 arg1 => cat.setTvocBaseline.fits arg0 arg1
  | .cmdGetSerialId arg0 arg1 => cat.getSerialId.fits arg0 arg1
  | .reserved code => decide (0x18 ≤ code.toNat)
  | .probe | .getSerialId | .getFeatureSetVersion | .iaqInit | .measureIaq | .readIaq
  | .measureIaqBlockingRead | .getIaqBaseline | .setIaqBaseline _ _ | .getTvocInceptiveBaseline | .setTvocBaseline _
  | .measureTvoc | .readTvoc | .measureTvocBlockingRead | .measureCo2Eq | .readCo2Eq | .measureCo2EqBlockingRead
  | .measureRaw | .readRaw | .measureRawBlockingRead | .measureTest | .setAbsoluteHumidity _ | .crcCompute _
  | .crcVerify _ _ => true

end Sys2Proof
end

