-- ==== Sys2Proof/Decode.lean ====
section
/-! DEFINITION. The two encodings of spec 30_encoding: the host request triple (R57, R60) and the wire command frame (R51).
The decoder is total and rejects by name; the encoder after it is written from the same tables. Both take the catalog,
since the opcodes and the lengths of frames are its entries (R53, R54). -/

namespace Sys2Proof

open Sys2Proof.Machine (wordOf hiByte loByte verify triples)

/-- An encoded instruction, as it stands at a port: the triple `(OP, A0, A1)` of R57, or the bytes of a command frame (R51). -/
inductive Encoded where
  | request (op : BitVec 8) (a0 : BitVec 32) (a1 : BitVec 16)
  | frame (bytes : List Byte)
  deriving DecidableEq, Repr

/-- Why a byte list is no command frame of the catalog. A request triple is never rejected: R57 and R60 give every code. -/
inductive Reject where
  /-- Fewer than the two opcode bytes. -/
  | shortFrame
  /-- R31, R61: the opcode is in no catalog entry. -/
  | unknownOpcode (op : Word)
  /-- R35, R54: the bytes after the opcode are not the command's argument triples. -/
  | frameLength (c : Cmd)
  /-- R50: the checksum of argument word `i` is not `CRC8` of its bytes. -/
  | badChecksum (i : Nat)
  deriving DecidableEq, Repr

/-- R57 and R60: every request code has a meaning. Operands a request does not use are ignored (D47). -/
def decodeRequest (op : BitVec 8) (a0 : BitVec 32) (a1 : BitVec 16) : Instr :=
  match op.toNat with
  | 0x00 => .probe
  | 0x01 => .getSerialId
  | 0x02 => .getFeatureSetVersion
  | 0x03 => .iaqInit
  | 0x04 => .measureIaq
  | 0x05 => .readIaq
  | 0x06 => .measureIaqBlockingRead
  | 0x07 => .getIaqBaseline
  | 0x08 => .setIaqBaseline a0 a1
  | 0x09 => .getTvocInceptiveBaseline
  | 0x0A => .setTvocBaseline a0
  | 0x0B => .measureTvoc
  | 0x0C => .readTvoc
  | 0x0D => .measureTvocBlockingRead
  | 0x0E => .measureCo2Eq
  | 0x0F => .readCo2Eq
  | 0x10 => .measureCo2EqBlockingRead
  | 0x11 => .measureRaw
  | 0x12 => .readRaw
  | 0x13 => .measureRawBlockingRead
  | 0x14 => .measureTest
  | 0x15 => .setAbsoluteHumidity a0
  | 0x16 => .crcCompute a0
  | 0x17 => .crcVerify a0 a1
  | _ => .reserved op

/-- R50, R51: the argument words of a frame, their checksums verified. `i` is the index of the first word; `none` where
the bytes are not whole triples. -/
def decodeTriples (i : Nat) : List Byte → Except Reject (Option (List Word))
  | [] => .ok (some [])
  | b0 :: b1 :: c :: rest =>
    if verify b0 b1 c then
      match decodeTriples (i + 1) rest with
      | .ok (some ws) => .ok (some (wordOf b0 b1 :: ws))
      | .ok none => .ok none
      | .error e => .error e
    else .error (.badChecksum i)
  | [_, _] => .ok none
  | [_] => .ok none

/-- Format `C0` (R51): no argument word. -/
def formatC0 : List Word → Option (Option Word × Option Word)
  | [] => some (none, none)
  | _ :: _ => none

/-- Format `C1` (R51): one argument word. -/
def formatC1 : List Word → Option (Option Word × Option Word)
  | [w0] => some (some w0, none)
  | [] => none
  | _ :: _ :: _ => none

/-- Format `C2` (R51): two argument words. -/
def formatC2 : List Word → Option (Option Word × Option Word)
  | [w0, w1] => some (some w0, some w1)
  | [] => none
  | [_] => none
  | _ :: _ :: _ :: _ => none

/-- R51, R54: the operands of a frame in the format that `P_NARG` chooses; `none` where the words do not fill it exactly. -/
def formatOf (nArg : Fin 3) (ws : List Word) : Option (Option Word × Option Word) :=
  match nArg with
  | 0 => formatC0 ws
  | 1 => formatC1 ws
  | 2 => formatC2 ws

/-- The wire command `c` with the operands of its frame. -/
def Cmd.command (c : Cmd) (arg0 arg1 : Option Word) : Instr :=
  match c with
  | .iaqInit => .cmdIaqInit arg0 arg1
  | .measureIaq => .cmdMeasureIaq arg0 arg1
  | .getIaqBaseline => .cmdGetIaqBaseline arg0 arg1
  | .setIaqBaseline => .cmdSetIaqBaseline arg0 arg1
  | .setAbsoluteHumidity => .cmdSetAbsoluteHumidity arg0 arg1
  | .measureTest => .cmdMeasureTest arg0 arg1
  | .getFeatureSet => .cmdGetFeatureSet arg0 arg1
  | .measureRaw => .cmdMeasureRaw arg0 arg1
  | .getTvocInceptiveBaseline => .cmdGetTvocInceptiveBaseline arg0 arg1
  | .setTvocBaseline => .cmdSetTvocBaseline arg0 arg1
  | .getSerialId => .cmdGetSerialId arg0 arg1

/-- R51, R53, R54: a command frame is the opcode, high byte first, and then the triples of as many argument words as the
catalog entry of the opcode says. -/
def decodeFrame (cat : Catalog) : List Byte → Except Reject Instr
  | hi :: lo :: rest =>
    match cat.ofOpcode (wordOf hi lo) with
    | none => .error (.unknownOpcode (wordOf hi lo))
    | some c =>
      match decodeTriples 0 rest with
      | .error e => .error e
      | .ok none => .error (.frameLength c)
      | .ok (some ws) =>
        match formatOf (cat.entry c).nArg ws with
        | none => .error (.frameLength c)
        | some (arg0, arg1) => .ok (c.command arg0 arg1)
  | [_] => .error .shortFrame
  | [] => .error .shortFrame

/-- The decoder: total on every request triple and every byte list. -/
def decode (cat : Catalog) : Encoded → Except Reject Instr
  | .request op a0 a1 => .ok (decodeRequest op a0 a1)
  | .frame bytes => decodeFrame cat bytes

/-- R51: the command frame of an opcode and its argument words. -/
def frameOf (op : Word) (args : List Word) : List Byte := [hiByte op, loByte op] ++ triples args

/-- The encoder, from the tables of R51 (frames) and R57 (request codes). Operands a request does not use are written 0. -/
def encode (cat : Catalog) : Instr → Encoded
  | .cmdIaqInit arg0 arg1 => .frame (frameOf cat.iaqInit.opcode (argWords arg0 arg1))
  | .cmdMeasureIaq arg0 arg1 => .frame (frameOf cat.measureIaq.opcode (argWords arg0 arg1))
  | .cmdGetIaqBaseline arg0 arg1 => .frame (frameOf cat.getIaqBaseline.opcode (argWords arg0 arg1))
  | .cmdSetIaqBaseline arg0 arg1 => .frame (frameOf cat.setIaqBaseline.opcode (argWords arg0 arg1))
  | .cmdSetAbsoluteHumidity arg0 arg1 => .frame (frameOf cat.setAbsoluteHumidity.opcode (argWords arg0 arg1))
  | .cmdMeasureTest arg0 arg1 => .frame (frameOf cat.measureTest.opcode (argWords arg0 arg1))
  | .cmdGetFeatureSet arg0 arg1 => .frame (frameOf cat.getFeatureSet.opcode (argWords arg0 arg1))
  | .cmdMeasureRaw arg0 arg1 => .frame (frameOf cat.measureRaw.opcode (argWords arg0 arg1))
  | .cmdGetTvocInceptiveBaseline arg0 arg1 => .frame (frameOf cat.getTvocInceptiveBaseline.opcode (argWords arg0 arg1))
  | .cmdSetTvocBaseline arg0 arg1 => .frame (frameOf cat.setTvocBaseline.opcode (argWords arg0 arg1))
  | .cmdGetSerialId arg0 arg1 => .frame (frameOf cat.getSerialId.opcode (argWords arg0 arg1))
  | .probe => .request 0x00 0 0
  | .getSerialId => .request 0x01 0 0
  | .getFeatureSetVersion => .request 0x02 0 0
  | .iaqInit => .request 0x03 0 0
  | .measureIaq => .request 0x04 0 0
  | .readIaq => .request 0x05 0 0
  | .measureIaqBlockingRead => .request 0x06 0 0
  | .getIaqBaseline => .request 0x07 0 0
  | .setIaqBaseline a0 a1 => .request 0x08 a0 a1
  | .getTvocInceptiveBaseline => .request 0x09 0 0
  | .setTvocBaseline a0 => .request 0x0A a0 0
  | .measureTvoc => .request 0x0B 0 0
  | .readTvoc => .request 0x0C 0 0
  | .measureTvocBlockingRead => .request 0x0D 0 0
  | .measureCo2Eq => .request 0x0E 0 0
  | .readCo2Eq => .request 0x0F 0 0
  | .measureCo2EqBlockingRead => .request 0x10 0 0
  | .measureRaw => .request 0x11 0 0
  | .readRaw => .request 0x12 0 0
  | .measureRawBlockingRead => .request 0x13 0 0
  | .measureTest => .request 0x14 0 0
  | .setAbsoluteHumidity a0 => .request 0x15 a0 0
  | .crcCompute a0 => .request 0x16 a0 0
  | .crcVerify a0 a1 => .request 0x17 a0 a1
  | .reserved code => .request code 0 0

/-- A word of spec/opcode_table.json as it stands at its port. A row of 8 bits is a request code, its operands 0. A wider
row is a command frame: the opcode is bits 15 to 0, argument word `i` the 16 bits after it, each argument word laid out as
the wire carries it, in a triple with its checksum (R50), as many as the catalog entry says (R54). Log 11. -/
def tableEncoding (cat : Catalog) (nbits w : Nat) : Encoded :=
  let w := w % 2 ^ nbits
  if nbits ≤ 8 then .request (BitVec.ofNat 8 w) 0 0
  else
    let op := BitVec.ofNat 16 w
    match cat.ofOpcode op with
    | none => .frame (frameOf op [])
    | some c => .frame (frameOf op ((List.range (cat.entry c).nArg.val).map fun i => BitVec.ofNat 16 (w >>> (16 * (i + 1)))))

/-- The instruction the decoder reads from a word of the opcode table, under the default catalog that the table lists. -/
def decodeTableWord (nbits w : Nat) : Option Instr :=
  match decode Catalog.default (tableEncoding Catalog.default nbits w) with
  | .ok i => some i
  | .error _ => none

end Sys2Proof
end

