-- ==== Sys2Proof/Machine/State.lean ====
section
/-! DEFINITION. State: every register of spec 10_state (R10 to R22, R27), the read-only parameters (R22), and the
environment at the four ports of 00_scope R2. Plain data. The block has no memory (R32), no program counter (R23). -/

namespace Sys2Proof.Machine

/-- One call of a port (R2 b, c; 00_scope section 4), with what the port answered. -/
inductive PortCall where
  | write (addr : BitVec 7) (bytes : List Byte) (result : WriteResult)
  | read (addr : BitVec 7) (count : Nat) (result : ReadResult)
  | sleep (us : Nat)
  deriving DecidableEq, Repr

/-- A port call with the time it was made at and the state of the transaction FSM it was made in. -/
structure Event where
  time : Nat
  txn  : Txn
  call : PortCall
  deriving DecidableEq, Repr

/-- What the host port presents: an encoded instruction, or the construction of a new session (R190, R191; log 20). -/
inductive Presented where
  | encoded (e : Encoded)
  | newSession
  deriving DecidableEq, Repr

/-- One item at the host port, and the microseconds the host lets pass before it presents it. -/
structure HostInput where
  gap  : Nat
  item : Presented
  deriving DecidableEq, Repr

/-- The environment (R2, R3): what is queued at the ports, the clock, and the record of the port calls made.
None of it is a register of the block. An empty answer queue means a free value (`Config`), not the end of the run. -/
structure Env where
  /-- The items the host will present, in order (R2 a, R6). -/
  host   : List HostInput
  /-- The transport's next answers to writes (R3, R24: an oracle). -/
  writes : List WriteAnswer
  /-- The transport's next answers to reads. -/
  reads  : List ReadAnswer
  /-- How many microseconds the next `Sleep` calls take (R198: the environment chooses). -/
  sleeps : List Nat
  /-- The environment's clock in microseconds; the time port shows its low 64 bits (R182, log 7). -/
  now    : Nat
  /-- How many port calls were made: the counter the free values are read at. The model's own field (log 4). -/
  calls  : Nat
  /-- Every port call made, oldest first. The model's own record of the block's outputs (log 22). -/
  trace  : List Event
  deriving DecidableEq, Repr

/-- The state of the block and its environment. -/
structure State where
  /-- The parameters and the catalog ROM (R21, R22). No rule writes them. -/
  cfg       : Params
  /-- `PHASE` (R10). Codes 5 to 7 are never written; a rule that reads one faults. -/
  phase     : BitVec 3
  /-- `KIND` (R11). -/
  kind      : Kind
  /-- `TXN` (R12). -/
  txn       : Txn
  /-- `PEND_CMD`, `T_ISSUE` and `T_WAIT` (R13). -/
  pendCmd   : Cmd
  tIssue    : BitVec 64
  tWait     : BitVec 32
  /-- `FS_REG` and `FS_VALID` (R14). -/
  fsReg     : Word
  fsValid   : Bool
  /-- `BASE_REG` and `BASE_VALID` (R15). -/
  baseReg   : BitVec 32
  baseValid : Bool
  /-- `WORD[0..2]` and `WCOUNT` (R16). -/
  word0     : Word
  word1     : Word
  word2     : Word
  wcount    : BitVec 2
  /-- `STATUS` (R17). -/
  status    : Word
  /-- `ARG[0..1]` and `NARG` (R18). -/
  arg0      : Word
  arg1      : Word
  narg      : BitVec 2
  /-- `TXBUF` and `RXBUF` (R19). -/
  txbuf     : List Byte
  rxbuf     : List Byte
  /-- `CRC_REG` (R20). -/
  crcReg    : Byte
  /-- `B` (R27). -/
  b         : Bool
  /-- The environment at the ports. -/
  env       : Env
  deriving DecidableEq, Repr

/-- Why the machine stops: a premise or an invariant of the spec is broken (93 section 1, treatment "fault"). All are safe:
the model stops where the hardware has no stated behaviour. -/
inductive Fault where
  /-- R10: a rule reads `PHASE` and finds a code that is never written. Raised by `Machine.readPhase`. Safe. -/
  | illegalPhase (code : BitVec 3)
  /-- R26: `ARG[i]` is read with `i ≥ NARG`. Raised by `Machine.readArg`; only a catalog whose `P_NARG` is above the number
  of words a request sets leads there (R101, log 19). Safe. -/
  | argNoValue (i : Nat)
  /-- R16, R26: `WORD[i]` is read with `i ≥ WCOUNT`. Raised by `Machine.readWord`, for the host's reading of a response and
  for a catalog whose `P_NRESP` is below the number of words a request uses (log 19). Safe. -/
  | wordNoValue (i : Nat)
  /-- R17, R170: the host reads a `STATUS` that is never written. Raised by `Machine.hostResponse`. Safe. -/
  | illegalStatus (status : Word)
  deriving DecidableEq, Repr

/-- Why there is no meaning for what is presented. -/
inductive Refusal where
  /-- An instruction whose meaning is not written. Raised by exec's arm for it; there is none. Safe. -/
  | notModelled (mnemonic : String)
  /-- R61: the bytes presented as a command frame are no frame of the catalog; the block has no path that emits them.
  Raised by `Machine.step`. Safe. -/
  | notACommand (why : Reject)
  deriving DecidableEq, Repr

/-- The environment at reset: nothing presented, nothing answered, nothing called, the clock at 0 (R182 leaves its value
open: DESIGN CHOICE, log 3, unsafe). -/
def Env.reset : Env :=
  { host := [], writes := [], reads := [], sleeps := [], now := 0, calls := 0, trace := [] }

/-- The machine right after reset (R25, R190). `KIND`, `PEND_CMD`, `T_ISSUE`, `T_WAIT`, `FS_REG`, `BASE_REG`, `CRC_REG`,
`WORD` and `ARG` are unspecified there and hold the first code or 0 here: DESIGN CHOICE, log 1, unsafe. -/
def State.reset : State where
  cfg       := Params.default
  phase     := 0
  kind      := .iaq
  txn       := .idle
  pendCmd   := .iaqInit
  tIssue    := 0
  tWait     := 0
  fsReg     := 0
  fsValid   := false
  baseReg   := 0
  baseValid := false
  word0     := 0
  word1     := 0
  word2     := 0
  wcount    := 0
  status    := 0
  arg0      := 0
  arg1      := 0
  narg      := 0
  txbuf     := []
  rxbuf     := []
  crcReg    := 0
  b         := false
  env       := Env.reset

end Sys2Proof.Machine
end

