-- ==== Sys2Proof/Machine/Operands.lean ====
section
/-! DEFINITION. The operand forms: the fields of `A0` and `A1` (spec 30_encoding R57, R58), the argument words made from
them (R55, 43_session_ops R125, R130), and the decoding of a measurement's two words (44_measurement R141). -/

namespace Sys2Proof.Machine

/-- R58: the bits of `A0` above a 16-bit operand. -/
def a0High (a0 : BitVec 32) : BitVec 16 := a0.extractLsb' 16 16

/-- R57: `A0[15:0]`. -/
def a0Word (a0 : BitVec 32) : Word := a0.extractLsb' 0 16

/-- R57: `byte0 = A0[15:8]`. -/
def a0Byte0 (a0 : BitVec 32) : Byte := a0.extractLsb' 8 8

/-- R57: `byte1 = A0[7:0]`. -/
def a0Byte1 (a0 : BitVec 32) : Byte := a0.extractLsb' 0 8

/-- R58: the bits of `A1` above an 8-bit operand. -/
def a1High (a1 : BitVec 16) : Byte := a1.extractLsb' 8 8

/-- R57: `checksum = A1[7:0]`. -/
def a1Byte (a1 : BitVec 16) : Byte := a1.extractLsb' 0 8

/-- R58: a 16-bit operand in `A0` is too wide. -/
def a0TooWide (a0 : BitVec 32) : Bool := a0High a0 != 0

/-- R58: an 8-bit operand in `A1` is too wide. -/
def a1TooWide (a1 : BitVec 16) : Bool := a1High a1 != 0

/-- R58, R129: the humidity operand is read as a signed 32-bit integer. -/
def humidityValue (a0 : BitVec 32) : Int := a0.toInt

/-- R129: the operand is valid iff it lies in `[0, 256000]`, both bounds included. -/
def humidityValid (a0 : BitVec 32) : Bool := decide (0 ≤ humidityValue a0 ∧ humidityValue a0 ≤ 256000)

/-- R130, R131: the compensation word of a valid operand; 0 sends `0x0000`, which disables compensation. -/
def humidityWord (p : Params) (a0 : BitVec 32) : Word :=
  if humidityValue a0 = 0 then 0 else p.humScale.apply (humidityValue a0).toNat

/-- R83, R125: the argument words of a baseline, in the order of `P_SETBASE_ORDER`. -/
def baselineArgs (p : Params) (co2eq tvoc : Word) : List Word :=
  match p.setBaseTvocAt with
  | .first => [tvoc, co2eq]
  | .second => [co2eq, tvoc]

/-- R15: `BASE_REG` is `co2eq ‖ tvoc`. -/
def baselineReg (co2eq tvoc : Word) : BitVec 32 := co2eq ++ tvoc

/-- The word at a wire position of a two-word response. -/
def wordAt (s : State) : WirePos → Word
  | .first => s.word0
  | .second => s.word1

/-- The word at the other wire position. -/
def wordBeside (s : State) : WirePos → Word
  | .first => s.word1
  | .second => s.word0

/-- R141: the decoded result of a kind, in the document's order, from the two words of the response. -/
def decodeResult (k : Kind) (s : State) : List Word :=
  match k with
  | .iaq => [wordAt s s.cfg.iaqTvocAt, wordBeside s s.cfg.iaqTvocAt]
  | .tvoc => [wordAt s s.cfg.iaqTvocAt]
  | .co2eq => [wordBeside s s.cfg.iaqTvocAt]
  | .raw => [wordAt s s.cfg.rawEthanolAt, wordBeside s s.cfg.rawEthanolAt]

/-- R14: the version field of the feature-set word. -/
def fsVersion (w : Word) : Byte := w.extractLsb' 0 8

/-- R14: the product-type field of the feature-set word. No rule reads it (D39). -/
def fsProductType (w : Word) : BitVec 4 := w.extractLsb' 12 4

end Sys2Proof.Machine
end

