-- ==== Sys2Proof/Machine/Ops.lean ====
section
/-! DEFINITION. The named operations over the registers and the ports, shared by every meaning: raising an error and
returning (spec 60_exceptions R176, 00_scope section 4), the checks (R177, R126, R142, R155), the ports, and the protocol
engine (42_protocol_engine R100 to R106). -/

namespace Sys2Proof.Machine

/-- The outcome of an instruction. -/
abbrev Result := Host.Outcome State Fault Refusal

/-! ### Register updates -/

def State.setPhase (p : Phase) (s : State) : State := { s with phase := p.bits }

def State.setKind (k : Kind) (s : State) : State := { s with kind := k }

def State.setTxn (t : Txn) (s : State) : State := { s with txn := t }

/-- R102: the issue of a command, recorded. -/
def State.setIssue (c : Cmd) (time : BitVec 64) (wait : BitVec 32) (s : State) : State :=
  { s with pendCmd := c, tIssue := time, tWait := wait }

/-- R14: a feature-set word is cached, and `FS_VALID` says so. -/
def State.setFeatureSet (w : Word) (s : State) : State := { s with fsReg := w, fsValid := true }

/-- R15: a baseline is cached, and `BASE_VALID` says so. -/
def State.setBaseline (v : BitVec 32) (s : State) : State := { s with baseReg := v, baseValid := true }

def State.setWords (w0 w1 w2 : Word) (s : State) : State := { s with word0 := w0, word1 := w1, word2 := w2 }

def State.setWcount (n : BitVec 2) (s : State) : State := { s with wcount := n }

def State.setStatus (st : Word) (s : State) : State := { s with status := st }

def State.setArgs (w0 w1 : Word) (n : BitVec 2) (s : State) : State := { s with arg0 := w0, arg1 := w1, narg := n }

def State.setTxbuf (bs : List Byte) (s : State) : State := { s with txbuf := bs }

def State.setRxbuf (bs : List Byte) (s : State) : State := { s with rxbuf := bs }

def State.setCrc (r : Byte) (s : State) : State := { s with crcReg := r }

def State.setB (b : Bool) (s : State) : State := { s with b := b }

def State.setEnv (e : Env) (s : State) : State := { s with env := e }

/-! ### Result words and argument words -/

/-- `WORD[i] <- wi` for each word, and `WCOUNT <-` their number (00_scope section 4, R106). No rule has more than three. -/
def writeWords (ws : List Word) (s : State) : State :=
  match ws with
  | [] => s.setWcount 0
  | [w0] => (s.setWords w0 s.word1 s.word2).setWcount 1
  | [w0, w1] => (s.setWords w0 w1 s.word2).setWcount 2
  | w0 :: w1 :: w2 :: _ => (s.setWords w0 w1 w2).setWcount 3

/-- `ARG[i] <- wi` for each word, and `NARG <-` their number (R18). No rule has more than two. -/
def loadArgs (ws : List Word) (s : State) : State :=
  match ws with
  | [] => s.setArgs s.arg0 s.arg1 0
  | [w0] => s.setArgs w0 s.arg1 1
  | w0 :: w1 :: _ => s.setArgs w0 w1 2

/-- R26: `ARG[i]` holds a value only below `NARG`. -/
def readArg (i : Nat) (s : State) : Except Fault Word :=
  if i < s.narg.toNat then .ok (if i = 0 then s.arg0 else s.arg1) else .error (.argNoValue i)

/-- R16, R26: `WORD[i]` holds a value only below `WCOUNT`. -/
def readWord (i : Nat) (s : State) : Except Fault Word :=
  if i < s.wcount.toNat then .ok (if i = 0 then s.word0 else if i = 1 then s.word1 else s.word2)
  else .error (.wordNoValue i)

/-- R101: the argument words of a frame of `n`. -/
def readArgs (n : Fin 3) (s : State) : Except Fault (List Word) :=
  match n with
  | 0 => .ok []
  | 1 => (readArg 0 s).map fun w0 => [w0]
  | 2 =>
    match readArg 0 s with
    | .error f => .error f
    | .ok w0 => (readArg 1 s).map fun w1 => [w0, w1]

/-! ### Raising an error, and returning -/

/-- R176: what a raise writes, and nothing else. `isRead` says that the request is a `read_X` or a
`measure_X_blocking_read`: there an error of the read path ends the measurement (R156). -/
def raise (isRead : Bool) (e : Error) (s : State) : State :=
  let s := ((s.setStatus (statusOf e)).setWcount 0).setTxn .idle
  if isRead && e.stageCode == 2 then s.setPhase .iaqInitialized else s

/-- `return (w0, w1, …)` of a request rule (00_scope section 4, R176): the results, and status `OK`. -/
def ret (ws : List Word) (s : State) : State := ((writeWords ws s).setStatus 0).setTxn .idle

/-- The end of a wire command: status `OK`; its words stand in `WORD` in wire order, as R106 left them (log 10). -/
def retWire (s : State) : State := (s.setStatus 0).setTxn .idle

/-- A request leaves `IDLE` for its checks (R12, R100). -/
def begin (s : State) : State := s.setTxn .check

/-! ### The checks before any bus I/O -/

/-- How a check ends. -/
inductive Check where
  | pass
  | refuse (e : Error)
  | stop (f : Fault)
  deriving DecidableEq, Repr

/-- R10: a rule reads `PHASE`; a code that is never written faults. -/
def readPhase (s : State) : Except Fault Phase :=
  match Phase.ofBits s.phase with
  | some p => .ok p
  | none => .error (.illegalPhase s.phase)

/-- R126: `FSGate()`. -/
def fsGateCheck (s : State) : Check :=
  if s.fsValid = false then .refuse .featureSet
  else if fsVersion s.fsReg ≤ s.cfg.fsThreshold then .refuse .featureSet
  else .pass

/-- R177: `Admit(c)`, steps 3 to 5. -/
def admitCmd (c : Cmd) (s : State) : Check :=
  match readPhase s with
  | .error f => .stop f
  | .ok p =>
    if p = .measurementInFlight then .refuse .inFlight
    else if p ∉ (s.cfg.catalog.lookup c).allowedPhase then .refuse .sequencing
    else if (s.cfg.catalog.lookup c).fsGate then fsGateCheck s
    else .pass

/-- R182: `Now()`, the 64-bit count of microseconds that the time port shows. -/
def nowPort (s : State) : BitVec 64 := BitVec.ofNat 64 s.env.now

/-- R182: `Now() - T_ISSUE`, unsigned. -/
def elapsed (s : State) : BitVec 64 := nowPort s - s.tIssue

/-- R103, R155: `Now() - T_ISSUE ≥ T_WAIT`. -/
def waitElapsed (s : State) : Bool := decide (s.tWait.toNat ≤ (elapsed s).toNat)

/-- R155: `EarlyReadCheck()`. -/
def earlyReadCheck (s : State) : Check := if waitElapsed s then .pass else .refuse .earlyRead

/-- R142: `ReadAdmit(X)`, steps 3 and 6 of R177. -/
def readAdmit (k : Kind) (s : State) : Check :=
  match readPhase s with
  | .error f => .stop f
  | .ok p =>
    if p ≠ .measurementInFlight then .refuse .sequencing
    else if s.kind ≠ k then .refuse .inFlight
    else earlyReadCheck s

/-- Go on only where a check passes (R177: the first step that fails raises its error, and later steps do not run). -/
def checked (chk : Check) (s : State) (k : State → Result) : Result :=
  match chk with
  | .pass => k s
  | .refuse e => .next (raise false e s)
  | .stop f => .fault f

/-! ### The ports -/

/-- The transport's answer to a write made now: the queued one, or a free value (R3, R24). -/
def nextWrite (s : State) : WriteAnswer :=
  match s.env.writes with
  | a :: _ => a
  | [] => Config.freeWriteAnswer s.env.calls

/-- The transport's answer to a read made now: the queued one, or a free value (R3, R24). -/
def nextRead (s : State) : ReadAnswer :=
  match s.env.reads with
  | a :: _ => a
  | [] => Config.freeReadAnswer s.env.calls

/-- A port call is made: it takes `dt` microseconds, and it is recorded with the time and the `TXN` it was made in. -/
def Env.call (call : PortCall) (t : Txn) (dt : Nat) (e : Env) : Env :=
  { e with now := e.now + dt, calls := e.calls + 1, trace := e.trace ++ [{ time := e.now, txn := t, call := call }] }

/-- The state after `BusWrite(P_ADDR, bytes)`; what it returned is `(nextWrite s).result`. -/
def busWrite (bytes : List Byte) (s : State) : State :=
  s.setEnv ({ s.env with writes := s.env.writes.tail }.call (.write s.cfg.addr bytes (nextWrite s).result) s.txn (nextWrite s).dt)

/-- The state after `BusRead(P_ADDR, n)`; what it returned is `(nextRead s).result`. -/
def busRead (n : Nat) (s : State) : State :=
  s.setEnv ({ s.env with reads := s.env.reads.tail }.call (.read s.cfg.addr n (nextRead s).result) s.txn (nextRead s).dt)

/-- The state after a `Sleep(us)` that took `dt` microseconds (R198: the environment chooses `dt`). -/
def sleepCall (us dt : Nat) (s : State) : State :=
  s.setEnv ({ s.env with sleeps := s.env.sleeps.tail }.call (.sleep us) s.txn dt)

/-! ### The protocol engine -/

/-- How a procedure of the protocol engine ends: it returns, or it raises. -/
inductive Run where
  | ok (s : State)
  | err (e : Error) (s : State)
  deriving DecidableEq, Repr

/-- The rest of a procedure runs only where nothing was raised (R107, R179). -/
def Run.andThen (r : Run) (k : State → Run) : Run :=
  match r with
  | .ok s => k s
  | .err e s => .err e s

/-- What a request takes back where a procedure of its raises: nothing else of the run is changed. -/
def Run.onRaise (r : Run) (f : State → State) : Run :=
  match r with
  | .ok s => .ok s
  | .err e s => .err e (f s)

/-- The end of a request: its last rule lines where the engine returned, the raise where it raised. -/
def Run.close (r : Run) (isRead : Bool) (k : State → State) : State :=
  match r with
  | .ok s => k s
  | .err e s => raise isRead e s

/-- R101: the frame is assembled in `TXBUF`; each argument word's checksum passes through `CRC_REG` (R70, R75). -/
def assemble (c : Cmd) (s : State) : Except Fault State :=
  match readArgs (s.cfg.catalog.lookup c).nArg s with
  | .error f => .error f
  | .ok ws =>
    .ok ((s.setTxbuf (frameOf (s.cfg.catalog.lookup c).opcode ws)).setCrc
      (ws.foldl (fun _ w => crc8 (hiByte w) (loByte w)) s.crcReg))

/-- R102: exactly one write of the frame; the issue is recorded only where it was acknowledged. -/
def writePath (c : Cmd) (s : State) : Run :=
  match (nextWrite s).result with
  | .nack => .err (.commWrite .nack) (busWrite s.txbuf s)
  | .ioerr => .err (.commWrite .ioerr) (busWrite s.txbuf s)
  | .ack =>
    .ok ((busWrite s.txbuf s).setIssue c (nowPort (busWrite s.txbuf s)) (s.cfg.catalog.lookup c).waitUs)

/-- R103, R198: sleep `us`, and again for what is left, until the wait has elapsed. The list is how long the next sleeps
take; after it comes the sleep that does not return early (log 6). -/
def sleepLoop (us : Nat) : List Nat → State → State
  | [], s => sleepCall us (us + (Config.freeOversleep s.env.calls).toNat) s
  | d :: ds, s =>
    if waitElapsed (sleepCall us d s) then sleepCall us d s
    else sleepLoop (s.tWait.toNat - (elapsed (sleepCall us d s)).toNat) ds (sleepCall us d s)

/-- R103: `WaitPath()`. The block is suspended only in `TXN = WAIT` (R12, R197; log 16). -/
def waitPath (s : State) : State := sleepLoop s.tWait.toNat s.env.sleeps (s.setTxn .wait)

/-- R106: verify the triples in index order from index `i` on; the first that fails is reported (D40). -/
def verifyTriples (i : Nat) : List Byte → State → Run
  | b0 :: b1 :: c :: rest, s =>
    if verify b0 b1 c then verifyTriples (i + 1) rest (s.setCrc (crc8 b0 b1))
    else .err (.crcMismatch (Fin.ofNat 3 i)) (s.setCrc (crc8 b0 b1))
  | [], s => .ok s
  | [_], s => .ok s
  | [_, _], s => .ok s

/-- R56, R106: the words of the triples, their checksums dropped. -/
def wordsOf : List Byte → List Word
  | b0 :: b1 :: _ :: rest => wordOf b0 b1 :: wordsOf rest
  | [] => []
  | [_] => []
  | [_, _] => []

/-- R106: no word is written until every triple has passed. -/
def verifyPath (s : State) : Run :=
  (verifyTriples 0 s.rxbuf (s.setTxn .verify)).andThen fun s' => .ok (writeWords (wordsOf s.rxbuf) s')

/-- R104, R106: the read of `m` words, and what is made of the answer. `RXBUF` holds nine bytes (R19): of a longer answer it
keeps the first nine, and the length check is made on the answer itself (log 17). -/
def receive (m : Nat) (s : State) : Run :=
  match (nextRead s).result with
  | .nack => .err (.commRead .nack) (busRead (3 * m) s)
  | .ioerr => .err (.commRead .ioerr) (busRead (3 * m) s)
  | .bytes bs =>
    if bs.length = 3 * m then verifyPath ((busRead (3 * m) s).setRxbuf (bs.take 9))
    else .err .wordCount ((busRead (3 * m) s).setRxbuf (bs.take 9))

/-- R104 to R106: `ReadPath(c)`; a command with no response words makes no read (R105). -/
def readPath (c : Cmd) (s : State) : Run :=
  if (s.cfg.catalog.lookup c).nResp.val = 0 then .ok (s.setWcount 0)
  else receive (s.cfg.catalog.lookup c).nResp.val (s.setTxn .read)

/-- R100: `Execute(c, FULL)` after the frame is assembled: write, wait, read. -/
def runFull (c : Cmd) (s : State) : Run :=
  (writePath c s).andThen fun s => (readPath c (waitPath s)).andThen fun s => .ok (s.setTxn .idle)

/-- R100: `Execute(c, WRITE_ONLY)` after the frame is assembled. -/
def runWriteOnly (c : Cmd) (s : State) : Run := (writePath c s).andThen fun s => .ok (s.setTxn .idle)

/-- R100: `Execute(c, READ_ONLY)`. -/
def runReadOnly (c : Cmd) (s : State) : Run := (readPath c s).andThen fun s => .ok (s.setTxn .idle)

/-- The end of a request that uses the first `need` words of a response of `c`. With the counts of 41_catalog there are that
many; a catalog with fewer makes the request read a `WORD` that holds no value, and it faults there (R26, log 19). -/
def settle (need : Nat) (c : Cmd) (isRead : Bool) (k : State → State) (s : State) (r : Run) : Result :=
  if need ≤ (s.cfg.catalog.lookup c).nResp.val then .next (r.close isRead k)
  else
    match r with
    | .ok _ => .fault (.wordNoValue (s.cfg.catalog.lookup c).nResp.val)
    | .err e s' => .next (raise isRead e s')

/-- `TXN <- WRITE`, and go on with the assembled frame (R100, R101). -/
def issue (c : Cmd) (s : State) (k : State → Result) : Result :=
  match assemble c (s.setTxn .write) with
  | .error f => .fault f
  | .ok s' => k s'

/-- A request in mode `FULL` of a catalog command: the checks, the arguments, the transaction, and then the rule's own last
lines `k`, which use the first `need` words. -/
def fullRequest (c : Cmd) (args : List Word) (need : Nat) (k : State → State) (s : State) : Result :=
  checked (admitCmd c s) s fun s => issue c (loadArgs args s) fun s => settle need c false k s (runFull c s)

/-- A wire command as a step of its own: the gates of its entry (R91), its frame's argument words, and `Execute(c, FULL)`
(R100). Log 10. -/
def wireCommand (c : Cmd) (args : List Word) (s : State) : Result := fullRequest c args 0 retWire (begin s)

/-! ### The host's side -/

/-- The response a host reads (R59). -/
structure Response where
  status : Word
  words  : List Word
  b      : Bool
  deriving DecidableEq, Repr

/-- R59, R16, R17: `(STATUS, WCOUNT, WORD[0..WCOUNT-1], B)`; a `STATUS` that is never written faults (R170). -/
def hostResponse (s : State) : Except Fault Response :=
  if legalStatus s.status then
    .ok { status := s.status, words := [s.word0, s.word1, s.word2].take s.wcount.toNat, b := s.b }
  else .error (.illegalStatus s.status)

/-- R190: a new session. Every register takes its reset value; the parameters and the catalog ROM stay (R43, R200), and the
environment goes on: reset makes no port call and the clock and the sensor keep what they had. Log 20. -/
def newSession (s : State) : State := { State.reset with cfg := s.cfg, env := s.env }

/-- An item is taken from the host port, after the time the host let pass. -/
def takeInput (gap : Nat) (rest : List HostInput) (s : State) : State :=
  s.setEnv { s.env with host := rest, now := s.env.now + gap }

/-- An item is put at the front of the host port. -/
def putInput (item : HostInput) (s : State) : State := s.setEnv { s.env with host := item :: s.env.host }

end Sys2Proof.Machine
end

