-- ==== Sys2Proof/Machine/CrcUnit.lean ====
section
/-! DEFINITION. The requests that expose the CRC unit (spec 40_checksum R72, R73). They make no bus I/O and read no phase. -/

namespace Sys2Proof.Machine

/-- R72. The computation passes through `CRC_REG` (R70, log 18). -/
def execCrcCompute (a0 : BitVec 32) (s : State) : Result :=
  if a0TooWide a0 then .next (raise false .argWidth (begin s))
  else
    let c := crc8 (a0Byte0 a0) (a0Byte1 a0)
    .next (ret [c.setWidth 16] ((begin s).setCrc c))

/-- R73: a mismatch is a result, no error. -/
def execCrcVerify (a0 : BitVec 32) (a1 : BitVec 16) (s : State) : Result :=
  if a0TooWide a0 || a1TooWide a1 then .next (raise false .argWidth (begin s))
  else
    .next (ret [] (((begin s).setCrc (crc8 (a0Byte0 a0) (a0Byte1 a0))).setB
      (verify (a0Byte0 a0) (a0Byte1 a0) (a1Byte a1))))

end Sys2Proof.Machine
end

