-- ==== Sys2Proof/Machine/Measure.lean ====
section
/-! DEFINITION. The measurement requests (spec 44_measurement R140 to R158): three shapes, for four kinds. -/

namespace Sys2Proof.Machine

/-- R143: `KIND <- X; PHASE <- MeasurementInFlight`. -/
def inFlight (k : Kind) (s : State) : State := (s.setKind k).setPhase .measurementInFlight

/-- R144, R158: through `ResultReady` back to `IAQInitialized`, and the decoded result. -/
def readDone (k : Kind) (s : State) : State :=
  ret (decodeResult k s) ((s.setPhase .resultReady).setPhase .iaqInitialized)

/-- R143, R146, R149, R152: a split measure; it does not wait. -/
def measureStart (k : Kind) (s : State) : Result :=
  checked (admitCmd k.cmd s) s fun s => issue k.cmd (loadArgs [] s) fun s =>
    .next ((runWriteOnly k.cmd s).close false fun s => ret [] (inFlight k s))

/-- R144, R147, R150, R153: a split read. -/
def measureRead (k : Kind) (s : State) : Result :=
  checked (readAdmit k s) s fun s => settle 2 k.cmd true (readDone k) s (runReadOnly k.cmd s)

/-- R145: the blocking read after its frame is assembled: write, in flight, wait, read. Where the read raises, `KIND` holds
again what it held before the request (R178; log 15). -/
def runBlocking (k : Kind) (s : State) : Run :=
  (runWriteOnly k.cmd s).andThen fun s₁ => (runReadOnly k.cmd (waitPath (inFlight k s₁))).onRaise (State.setKind s.kind)

/-- R145, R148, R151, R154: a blocking read. -/
def measureBlocking (k : Kind) (s : State) : Result :=
  checked (admitCmd k.cmd s) s fun s => issue k.cmd (loadArgs [] s) fun s =>
    settle 2 k.cmd true (readDone k) s (runBlocking k s)

/-- R143. -/
def execMeasureIaq (s : State) : Result := measureStart .iaq (begin s)

/-- R144. -/
def execReadIaq (s : State) : Result := measureRead .iaq (begin s)

/-- R145. -/
def execMeasureIaqBlockingRead (s : State) : Result := measureBlocking .iaq (begin s)

/-- R146. -/
def execMeasureTvoc (s : State) : Result := measureStart .tvoc (begin s)

/-- R147. -/
def execReadTvoc (s : State) : Result := measureRead .tvoc (begin s)

/-- R148. -/
def execMeasureTvocBlockingRead (s : State) : Result := measureBlocking .tvoc (begin s)

/-- R149. -/
def execMeasureCo2Eq (s : State) : Result := measureStart .co2eq (begin s)

/-- R150. -/
def execReadCo2Eq (s : State) : Result := measureRead .co2eq (begin s)

/-- R151. -/
def execMeasureCo2EqBlockingRead (s : State) : Result := measureBlocking .co2eq (begin s)

/-- R152. -/
def execMeasureRaw (s : State) : Result := measureStart .raw (begin s)

/-- R153. -/
def execReadRaw (s : State) : Result := measureRead .raw (begin s)

/-- R154. -/
def execMeasureRawBlockingRead (s : State) : Result := measureBlocking .raw (begin s)

end Sys2Proof.Machine
end

