-- ==== Sys2Proof/Machine/Session.lean ====
section
/-! DEFINITION. The session requests (spec 43_session_ops R120 to R132) and the reserved codes (30_encoding R60). -/

namespace Sys2Proof.Machine

/-- R120: the lines of `probe` after its transaction. -/
def probeDone (s : State) : State :=
  let s := s.setFeatureSet s.word0
  ret [] (if s.phase = Phase.unprobed.bits then s.setPhase .probed else s)

/-- R120. -/
def execProbe (s : State) : Result := fullRequest .getFeatureSet [] 1 probeDone (begin s)

/-- R121: the three words in wire order. -/
def execGetSerialId (s : State) : Result :=
  fullRequest .getSerialId [] 3 (fun s => ret [s.word0, s.word1, s.word2] s) (begin s)

/-- R122. -/
def execGetFeatureSetVersion (s : State) : Result :=
  fullRequest .getFeatureSet [] 1 (fun s => ret [s.word0] (s.setFeatureSet s.word0)) (begin s)

/-- R123. -/
def execIaqInit (s : State) : Result :=
  fullRequest .iaqInit [] 0 (fun s => ret [] (s.setPhase .iaqInitialized)) (begin s)

/-- R124. -/
def execGetIaqBaseline (s : State) : Result :=
  fullRequest .getIaqBaseline [] 2
    (fun s => ret [s.word0, s.word1] (s.setBaseline (baselineReg s.word0 s.word1))) (begin s)

/-- R125: `co2eq = A0[15:0]`, `tvoc = A1`. -/
def execSetIaqBaseline (a0 : BitVec 32) (a1 : BitVec 16) (s : State) : Result :=
  if a0TooWide a0 then .next (raise false .argWidth (begin s))
  else
    fullRequest .setIaqBaseline (baselineArgs s.cfg (a0Word a0) a1) 0
      (fun s => ret [] (s.setBaseline (baselineReg (a0Word a0) a1))) (begin s)

/-- R127. -/
def execGetTvocInceptiveBaseline (s : State) : Result :=
  fullRequest .getTvocInceptiveBaseline [] 1 (fun s => ret [s.word0] s) (begin s)

/-- R128: the value is copied verbatim. -/
def execSetTvocBaseline (a0 : BitVec 32) (s : State) : Result :=
  if a0TooWide a0 then .next (raise false .argWidth (begin s))
  else fullRequest .setTvocBaseline [a0Word a0] 0 (fun s => ret [] s) (begin s)

/-- R129, R131. -/
def execSetAbsoluteHumidity (a0 : BitVec 32) (s : State) : Result :=
  if humidityValid a0 then
    fullRequest .setAbsoluteHumidity [humidityWord s.cfg a0] 0 (fun s => ret [] s) (begin s)
  else .next (raise false .humidityRange (begin s))

/-- R132: `B` says whether the word is the sentinel; a failed self-test is a result, no error. -/
def execMeasureTest (s : State) : Result :=
  fullRequest .measureTest [] 1 (fun s => ret [s.word0] (s.setB (s.word0 == s.cfg.testPass))) (begin s)

/-- R60: a reserved code is refused, whichever it is, before anything else (R177 step 1). -/
def execReserved (_code : BitVec 8) (s : State) : Result := .next (raise false .illegalRequest (begin s))

end Sys2Proof.Machine
end

