-- ==== Sys2Proof/Machine/Wire.lean ====
section
/-! DEFINITION. The wire commands of the catalog ROM (spec 41_catalog R80 to R90) as steps of the protocol engine. How many
argument words a frame carries and how many words are read is the catalog's (R54); the rules cited give the defaults. The
argument words of the default format stand before the state, those that only another `P_NARG` gives a frame after it. -/

namespace Sys2Proof.Machine

/-- R80: write, wait; no response. -/
def execCmdIaqInit (s : State) (arg0 arg1 : Option Word := none) : Result :=
  wireCommand .iaqInit (argWords arg0 arg1) s

/-- R81: write, wait, read two words. -/
def execCmdMeasureIaq (s : State) (arg0 arg1 : Option Word := none) : Result :=
  wireCommand .measureIaq (argWords arg0 arg1) s

/-- R82: write, wait, read two words. -/
def execCmdGetIaqBaseline (s : State) (arg0 arg1 : Option Word := none) : Result :=
  wireCommand .getIaqBaseline (argWords arg0 arg1) s

/-- R83: write two argument words, wait; no response. -/
def execCmdSetIaqBaseline (arg0 arg1 : Option Word) (s : State) : Result :=
  wireCommand .setIaqBaseline (argWords arg0 arg1) s

/-- R84: write one argument word, wait; no response. -/
def execCmdSetAbsoluteHumidity (arg0 : Option Word) (s : State) (arg1 : Option Word := none) : Result :=
  wireCommand .setAbsoluteHumidity (argWords arg0 arg1) s

/-- R85: write, wait, read one word. -/
def execCmdMeasureTest (s : State) (arg0 arg1 : Option Word := none) : Result :=
  wireCommand .measureTest (argWords arg0 arg1) s

/-- R86: write, wait, read one word. -/
def execCmdGetFeatureSet (s : State) (arg0 arg1 : Option Word := none) : Result :=
  wireCommand .getFeatureSet (argWords arg0 arg1) s

/-- R87: write, wait, read two words. -/
def execCmdMeasureRaw (s : State) (arg0 arg1 : Option Word := none) : Result :=
  wireCommand .measureRaw (argWords arg0 arg1) s

/-- R88: write, wait, read one word; gated by the feature set. -/
def execCmdGetTvocInceptiveBaseline (s : State) (arg0 arg1 : Option Word := none) : Result :=
  wireCommand .getTvocInceptiveBaseline (argWords arg0 arg1) s

/-- R89: write one argument word, wait; no response; gated by the feature set. -/
def execCmdSetTvocBaseline (arg0 : Option Word) (s : State) (arg1 : Option Word := none) : Result :=
  wireCommand .setTvocBaseline (argWords arg0 arg1) s

/-- R90: write, wait, read three words. -/
def execCmdGetSerialId (s : State) (arg0 arg1 : Option Word := none) : Result :=
  wireCommand .getSerialId (argWords arg0 arg1) s

end Sys2Proof.Machine
end

