-- ==== Sys2Proof/Machine/Dispatch.lean ====
section
/-! DEFINITION. The meaning of every instruction: one arm for each constructor of Instr. -/

namespace Sys2Proof.Machine

def exec (i : Instr) (s : State) : Host.Outcome State Fault Refusal :=
  match i with
  -- wire commands
  | .cmdIaqInit arg0 arg1 => Sys2Proof.Machine.execCmdIaqInit s arg0 arg1
  | .cmdMeasureIaq arg0 arg1 => Sys2Proof.Machine.execCmdMeasureIaq s arg0 arg1
  | .cmdGetIaqBaseline arg0 arg1 => Sys2Proof.Machine.execCmdGetIaqBaseline s arg0 arg1
  | .cmdSetIaqBaseline arg0 arg1 => Sys2Proof.Machine.execCmdSetIaqBaseline arg0 arg1 s
  | .cmdSetAbsoluteHumidity arg0 arg1 => Sys2Proof.Machine.execCmdSetAbsoluteHumidity arg0 s arg1
  | .cmdMeasureTest arg0 arg1 => Sys2Proof.Machine.execCmdMeasureTest s arg0 arg1
  | .cmdGetFeatureSet arg0 arg1 => Sys2Proof.Machine.execCmdGetFeatureSet s arg0 arg1
  | .cmdMeasureRaw arg0 arg1 => Sys2Proof.Machine.execCmdMeasureRaw s arg0 arg1
  | .cmdGetTvocInceptiveBaseline arg0 arg1 => Sys2Proof.Machine.execCmdGetTvocInceptiveBaseline s arg0 arg1
  | .cmdSetTvocBaseline arg0 arg1 => Sys2Proof.Machine.execCmdSetTvocBaseline arg0 s arg1
  | .cmdGetSerialId arg0 arg1 => Sys2Proof.Machine.execCmdGetSerialId s arg0 arg1
  -- host requests
  | .probe => Sys2Proof.Machine.execProbe s
  | .getSerialId => Sys2Proof.Machine.execGetSerialId s
  | .getFeatureSetVersion => Sys2Proof.Machine.execGetFeatureSetVersion s
  | .iaqInit => Sys2Proof.Machine.execIaqInit s
  | .measureIaq => Sys2Proof.Machine.execMeasureIaq s
  | .readIaq => Sys2Proof.Machine.execReadIaq s
  | .measureIaqBlockingRead => Sys2Proof.Machine.execMeasureIaqBlockingRead s
  | .getIaqBaseline => Sys2Proof.Machine.execGetIaqBaseline s
  | .setIaqBaseline a0 a1 => Sys2Proof.Machine.execSetIaqBaseline a0 a1 s
  | .getTvocInceptiveBaseline => Sys2Proof.Machine.execGetTvocInceptiveBaseline s
  | .setTvocBaseline a0 => Sys2Proof.Machine.execSetTvocBaseline a0 s
  | .measureTvoc => Sys2Proof.Machine.execMeasureTvoc s
  | .readTvoc => Sys2Proof.Machine.execReadTvoc s
  | .measureTvocBlockingRead => Sys2Proof.Machine.execMeasureTvocBlockingRead s
  | .measureCo2Eq => Sys2Proof.Machine.execMeasureCo2Eq s
  | .readCo2Eq => Sys2Proof.Machine.execReadCo2Eq s
  | .measureCo2EqBlockingRead => Sys2Proof.Machine.execMeasureCo2EqBlockingRead s
  | .measureRaw => Sys2Proof.Machine.execMeasureRaw s
  | .readRaw => Sys2Proof.Machine.execReadRaw s
  | .measureRawBlockingRead => Sys2Proof.Machine.execMeasureRawBlockingRead s
  | .measureTest => Sys2Proof.Machine.execMeasureTest s
  | .setAbsoluteHumidity a0 => Sys2Proof.Machine.execSetAbsoluteHumidity a0 s
  | .crcCompute a0 => Sys2Proof.Machine.execCrcCompute a0 s
  | .crcVerify a0 a1 => Sys2Proof.Machine.execCrcVerify a0 a1 s
  | .reserved code => Sys2Proof.Machine.execReserved code s

end Sys2Proof.Machine
end

