-- ==== Sys2Proof/Machine/Step.lean ====
section
/-! DEFINITION. One step: the next item at the host port is taken and handled to completion (spec 00_scope R3, R6). -/

namespace Sys2Proof.Machine

/-- One step. While `TXN ≠ IDLE` nothing is accepted (R12), and with nothing presented the block is idle (R180: a request is
the only event); both leave everything as it is (log 8, 9). -/
def step (s : State) : Host.Outcome State Fault Refusal :=
  if s.txn ≠ .idle then .next s
  else
    match s.env.host with
    | [] => .next s
    | input :: rest =>
      match input.item with
      | .newSession => .next (newSession (takeInput input.gap rest s))
      | .encoded e =>
        match decode s.cfg.catalog e with
        | .ok i => exec i (takeInput input.gap rest s)
        | .error why => .refused (.notACommand why)

/-- The instruction of a word of spec/opcode_table.json, presented next at the host port, with no time passing before it.
`TXN` is `IDLE`, as the port needs it (R12). -/
def State.withFetchWord (s : State) (nbits w : Nat) : State :=
  putInput { gap := 0, item := .encoded (tableEncoding s.cfg.catalog nbits w) } (s.setTxn .idle)

end Sys2Proof.Machine
end

