-- ==== Sys2Proof/Safety.lean ====
section
/-! DEFINITION. The terms the statements are written in: which instruction issues which command, when the catalog admits it,
what a request's traffic at the ports looks like, what an error may change, and the invariants of the machine. -/

namespace Sys2Proof

/-- The command and the argument words of a wire command (41_catalog R80 to R90); `none` for a request. -/
def Instr.wire : Instr → Option (Cmd × List Word)
  | .cmdIaqInit arg0 arg1 => some (.iaqInit, argWords arg0 arg1)
  | .cmdMeasureIaq arg0 arg1 => some (.measureIaq, argWords arg0 arg1)
  | .cmdGetIaqBaseline arg0 arg1 => some (.getIaqBaseline, argWords arg0 arg1)
  | .cmdSetIaqBaseline arg0 arg1 => some (.setIaqBaseline, argWords arg0 arg1)
  | .cmdSetAbsoluteHumidity arg0 arg1 => some (.setAbsoluteHumidity, argWords arg0 arg1)
  | .cmdMeasureTest arg0 arg1 => some (.measureTest, argWords arg0 arg1)
  | .cmdGetFeatureSet arg0 arg1 => some (.getFeatureSet, argWords arg0 arg1)
  | .cmdMeasureRaw arg0 arg1 => some (.measureRaw, argWords arg0 arg1)
  | .cmdGetTvocInceptiveBaseline arg0 arg1 => some (.getTvocInceptiveBaseline, argWords arg0 arg1)
  | .cmdSetTvocBaseline arg0 arg1 => some (.setTvocBaseline, argWords arg0 arg1)
  | .cmdGetSerialId arg0 arg1 => some (.getSerialId, argWords arg0 arg1)
  | .probe | .getSerialId | .getFeatureSetVersion | .iaqInit | .measureIaq | .readIaq | .measureIaqBlockingRead
  | .getIaqBaseline | .setIaqBaseline _ _ | .getTvocInceptiveBaseline | .setTvocBaseline _ | .measureTvoc | .readTvoc
  | .measureTvocBlockingRead | .measureCo2Eq | .readCo2Eq | .measureCo2EqBlockingRead | .measureRaw | .readRaw
  | .measureRawBlockingRead | .measureTest | .setAbsoluteHumidity _ | .crcCompute _ | .crcVerify _ _ | .reserved _ => none

/-- The command a request writes to the sensor (R92); `none` for a wire command, a split read, a CRC request and a reserved
code. -/
def Instr.requests : Instr → Option Cmd
  | .probe => some .getFeatureSet
  | .getSerialId => some .getSerialId
  | .getFeatureSetVersion => some .getFeatureSet
  | .iaqInit => some .iaqInit
  | .measureIaq => some .measureIaq
  | .measureIaqBlockingRead => some .measureIaq
  | .getIaqBaseline => some .getIaqBaseline
  | .setIaqBaseline _ _ => some .setIaqBaseline
  | .getTvocInceptiveBaseline => some .getTvocInceptiveBaseline
  | .setTvocBaseline _ => some .setTvocBaseline
  | .measureTvoc => some .measureIaq
  | .measureTvocBlockingRead => some .measureIaq
  | .measureCo2Eq => some .measureIaq
  | .measureCo2EqBlockingRead => some .measureIaq
  | .measureRaw => some .measureRaw
  | .measureRawBlockingRead => some .measureRaw
  | .measureTest => some .measureTest
  | .setAbsoluteHumidity _ => some .setAbsoluteHumidity
  | .cmdIaqInit _ _ | .cmdMeasureIaq _ _ | .cmdGetIaqBaseline _ _ | .cmdSetIaqBaseline _ _ | .cmdSetAbsoluteHumidity _ _
  | .cmdMeasureTest _ _ | .cmdGetFeatureSet _ _ | .cmdMeasureRaw _ _ | .cmdGetTvocInceptiveBaseline _ _ | .cmdSetTvocBaseline _ _
  | .cmdGetSerialId _ _ | .readIaq | .readTvoc | .readCo2Eq | .readRaw | .crcCompute _ | .crcVerify _ _ | .reserved _ => none

/-- The command an instruction writes to the sensor, be it a request or a wire command. -/
def Instr.issues (i : Instr) : Option Cmd :=
  match i.wire with
  | some (c, _) => some c
  | none => i.requests

/-- How many argument words an instruction sets for its frame: a wire command as many as its frame has, a request as many as
its rule sets in `ARG` (43_session_ops R125, R128, R131). -/
def Instr.argCount (i : Instr) : Nat :=
  match i.wire with
  | some (_, args) => args.length
  | none =>
    match i.requests with
    | some .setIaqBaseline => 2
    | some .setTvocBaseline => 1
    | some .setAbsoluteHumidity => 1
    | some .iaqInit => 0
    | some .measureIaq => 0
    | some .getIaqBaseline => 0
    | some .measureTest => 0
    | some .getFeatureSet => 0
    | some .measureRaw => 0
    | some .getTvocInceptiveBaseline => 0
    | some .getSerialId => 0
    | none => 0

/-- The operands lie in their fields and in their range (R58, R129), so that step 2 of R177 passes. -/
def Instr.operandsValid : Instr → Prop
  | .setIaqBaseline a0 _ => a0.toNat < 2 ^ 16
  | .setTvocBaseline a0 => a0.toNat < 2 ^ 16
  | .setAbsoluteHumidity a0 => 0 ≤ a0.toInt ∧ a0.toInt ≤ 256000
  | .crcCompute a0 => a0.toNat < 2 ^ 16
  | .crcVerify a0 a1 => a0.toNat < 2 ^ 16 ∧ a1.toNat < 2 ^ 8
  | .cmdIaqInit _ _ | .cmdMeasureIaq _ _ | .cmdGetIaqBaseline _ _ | .cmdSetIaqBaseline _ _ | .cmdSetAbsoluteHumidity _ _
  | .cmdMeasureTest _ _ | .cmdGetFeatureSet _ _ | .cmdMeasureRaw _ _ | .cmdGetTvocInceptiveBaseline _ _ | .cmdSetTvocBaseline _ _
  | .cmdGetSerialId _ _ | .probe | .getSerialId | .getFeatureSetVersion | .iaqInit | .measureIaq | .readIaq
  | .measureIaqBlockingRead | .getIaqBaseline | .getTvocInceptiveBaseline | .measureTvoc | .readTvoc
  | .measureTvocBlockingRead | .measureCo2Eq | .readCo2Eq | .measureCo2EqBlockingRead | .measureRaw | .readRaw
  | .measureRawBlockingRead | .measureTest | .reserved _ => True

/-- `measure_X` (44_measurement R143, R146, R149, R152). -/
def Kind.measureRequest : Kind → Instr
  | .iaq => .measureIaq
  | .tvoc => .measureTvoc
  | .co2eq => .measureCo2Eq
  | .raw => .measureRaw

/-- `read_X` (44_measurement R144, R147, R150, R153). -/
def Kind.readRequest : Kind → Instr
  | .iaq => .readIaq
  | .tvoc => .readTvoc
  | .co2eq => .readCo2Eq
  | .raw => .readRaw

/-- `measure_X_blocking_read` (44_measurement R145, R148, R151, R154). -/
def Kind.blockingRequest : Kind → Instr
  | .iaq => .measureIaqBlockingRead
  | .tvoc => .measureTvocBlockingRead
  | .co2eq => .measureCo2EqBlockingRead
  | .raw => .measureRawBlockingRead

/-- The decoded result of a kind from the response words `w0`, `w1` in wire order (R141): in the document's order, for either
wire position of the TVOC word (`P_IAQ_MAP`) and of the ethanol word (`P_RAW_MAP`). -/
def Kind.decoded (p : Params) (w0 w1 : Word) (k : Kind) : List Word :=
  match k, p.iaqTvocAt, p.rawEthanolAt with
  | .iaq, .second, _ => [w1, w0]
  | .iaq, .first, _ => [w0, w1]
  | .tvoc, .second, _ => [w1]
  | .tvoc, .first, _ => [w0]
  | .co2eq, .second, _ => [w0]
  | .co2eq, .first, _ => [w1]
  | .raw, _, .second => [w1, w0]
  | .raw, _, .first => [w0, w1]

end Sys2Proof

namespace Sys2Proof.Machine

/-! ### When a command is admitted -/

/-- The "allowed PHASE" column of 41_catalog section 1, in the codes of R10. -/
def phaseAllows (c : Cmd) (p : BitVec 3) : Prop :=
  match c with
  | .iaqInit => p = 1 ∨ p = 2
  | .measureTest | .getFeatureSet | .getSerialId => p = 0 ∨ p = 1 ∨ p = 2
  | .measureIaq | .getIaqBaseline | .setIaqBaseline | .setAbsoluteHumidity | .measureRaw | .getTvocInceptiveBaseline
  | .setTvocBaseline => p = 2

/-- R126: the version that `FS_REG` holds exceeds the threshold. -/
def featureSetOpen (s : State) : Prop := s.fsValid = true ∧ s.cfg.fsThreshold.toNat < s.fsReg.toNat % 256

/-- The command is one of those that the feature set gates (R91). -/
def gatedByFeatureSet (c : Cmd) : Prop := c = .getTvocInceptiveBaseline ∨ c = .setTvocBaseline

/-- Steps 3 to 5 of R177 pass for `c`. -/
def mayIssue (c : Cmd) (s : State) : Prop := phaseAllows c s.phase ∧ (gatedByFeatureSet c → featureSetOpen s)

/-- The catalog gives `c` this many argument words and response words. -/
def countsAre (s : State) (c : Cmd) (nArg nResp : Nat) : Prop :=
  (s.cfg.catalog.entry c).nArg.val = nArg ∧ (s.cfg.catalog.entry c).nResp.val = nResp

/-! ### What the ports see -/

/-- The transport's next answer to a write. -/
def writeAnswers (s : State) (r : WriteResult) : Prop := (nextWrite s).result = r

/-- The transport's next answer to a read, queued. -/
def readAnswers (s : State) (r : ReadResult) : Prop := s.env.reads.head?.map ReadAnswer.result = some r

def Event.isWrite (e : Event) : Bool :=
  match e.call with
  | .write _ _ _ => true
  | .read _ _ _ => false
  | .sleep _ => false

def Event.isRead (e : Event) : Bool :=
  match e.call with
  | .write _ _ _ => false
  | .read _ _ _ => true
  | .sleep _ => false

def Event.isSleep (e : Event) : Bool :=
  match e.call with
  | .write _ _ _ => false
  | .read _ _ _ => false
  | .sleep _ => true

/-- The port calls between two states. -/
def newEvents (s t : State) : List Event := t.env.trace.drop s.env.trace.length

/-- The frame is written and acknowledged, the block sleeps, suspended in `WAIT` (R197), and the response, if the command
has one, is read in one call of its length (R37, R100). -/
def exchange (s t : State) (frame : List Byte) (response : List Byte) : Prop :=
  t.env.host = s.env.host ∧ ∃ slept readAt,
    (∀ e ∈ slept, e.isSleep = true ∧ e.txn = .wait) ∧ slept ≠ [] ∧
    t.env.trace =
      s.env.trace ++ [{ time := s.env.now, txn := .write, call := .write s.cfg.addr frame .ack }] ++ slept ++
        (if response = [] then []
         else [{ time := readAt, txn := .read, call := .read s.cfg.addr response.length (.bytes response) }])

/-- The issue of `c` by a write made in `s` is recorded (R102). -/
def issueRecorded (s t : State) (c : Cmd) : Prop :=
  t.pendCmd = c ∧ t.tIssue = BitVec.ofNat 64 (s.env.now + (nextWrite s).dt) ∧ t.tWait = (s.cfg.catalog.entry c).waitUs

/-- The checksum of triple `i` of a response is not that of its two data bytes (R71). -/
def badTriple (bs : List Byte) (i : Nat) : Bool :=
  crc8 (bs.getD (3 * i) 0) (bs.getD (3 * i + 1) 0) != bs.getD (3 * i + 2) 0

/-- The `STATUS` that an answer to the read of a response of `m` words leads to (R104, R106, R170); 0 where it is good. -/
def readStatus (m : Nat) (r : ReadResult) : Word :=
  match r with
  | .nack => 0x0812
  | .ioerr => 0x0822
  | .bytes bs =>
    if bs.length ≠ 3 * m then 0x0824
    else
      match (List.range m).find? (badTriple bs) with
      | none => 0
      | some i => BitVec.ofNat 16 (0x0813 + 0x0100 * i)

/-! ### What an error changes -/

/-- The state after a request that is refused before any bus I/O: nothing but `STATUS`, `WCOUNT` and `TXN` (R171, R176). -/
def refusedWith (st : Word) (s : State) : State := { s with status := st, wcount := 0, txn := .idle }

/-- What outlives a request (R178, and the parameters, R200). -/
structure Session where
  cfg       : Params
  phase     : BitVec 3
  kind      : Kind
  fsReg     : Word
  fsValid   : Bool
  baseReg   : BitVec 32
  baseValid : Bool
  b         : Bool
  deriving DecidableEq, Repr

def State.session (s : State) : Session :=
  { cfg := s.cfg, phase := s.phase, kind := s.kind, fsReg := s.fsReg, fsValid := s.fsValid, baseReg := s.baseReg,
    baseValid := s.baseValid, b := s.b }

/-- A request has ended with `OK`, these result words, and this session (R59, 00_scope section 4). -/
def completed (t : State) (words : List Word) (after : Session) : Prop :=
  hostResponse t = .ok { status := 0x0000, words := words, b := after.b } ∧ t.session = after ∧ t.txn = .idle

/-- A request has ended with an error: no result word, and this session (R176, R178). -/
def failed (t : State) (st : Word) (after : Session) : Prop :=
  t.status = st ∧ t.wcount = 0 ∧ t.session = after ∧ t.txn = .idle

/-! ### Invariants -/

/-- What holds between two requests. -/
structure State.Inv (s : State) : Prop where
  /-- R12. -/
  idle : s.txn = .idle
  /-- R10, R158: a phase, and never `ResultReady`. -/
  phaseLegal : s.phase.toNat ≤ 3
  /-- R126: only a probe leaves `Unprobed`, and it caches a feature-set word. -/
  featureSetKnown : s.phase ≠ 0 → s.fsValid = true
  /-- R13, R143: what is in flight is the command of `KIND`, with its wait. -/
  pending : s.phase = 3 → s.pendCmd = s.kind.cmd ∧ s.tWait = (s.cfg.catalog.entry s.kind.cmd).waitUs
  /-- R17, R170. -/
  statusLegal : legalStatus s.status = true
  /-- R16, R176: after an error no result word is valid. -/
  noWordAfterError : errKind s.status ≠ 0 → s.wcount = 0
  /-- R18. -/
  argCount : s.narg.toNat ≤ 2
  /-- R19, R35: the frame buffer is empty or holds a frame. -/
  txbuf : s.txbuf = [] ∨ s.txbuf.length = 2 ∨ s.txbuf.length = 5 ∨ s.txbuf.length = 8
  /-- R19. -/
  rxbuf : s.rxbuf.length ≤ 9

/-- The mandatory wait is over, unless a split measurement is in flight (R42). In microseconds of the clock itself. -/
def State.waitKept (s : State) : Prop :=
  s.tIssue.toNat ≤ s.env.now ∧ (s.phase ≠ 3 → s.tIssue.toNat + s.tWait.toNat ≤ s.env.now)

/-- What `PHASE` is after an instruction that ended with the status `st`, when it was `p` before (the table of R140). -/
def phaseAfter (i : Instr) (p : BitVec 3) (st : Word) : BitVec 3 :=
  match i with
  | .probe => if st = 0 ∧ p = 0 then 1 else p
  | .iaqInit => if st = 0 then 2 else p
  | .measureIaq | .measureTvoc | .measureCo2Eq | .measureRaw => if st = 0 then 3 else p
  | .readIaq | .readTvoc | .readCo2Eq | .readRaw => if st = 0 ∨ errStage st = 2 then 2 else p
  | .measureIaqBlockingRead | .measureTvocBlockingRead | .measureCo2EqBlockingRead | .measureRawBlockingRead
  | .cmdIaqInit _ _ | .cmdMeasureIaq _ _ | .cmdGetIaqBaseline _ _ | .cmdSetIaqBaseline _ _ | .cmdSetAbsoluteHumidity _ _
  | .cmdMeasureTest _ _ | .cmdGetFeatureSet _ _ | .cmdMeasureRaw _ _ | .cmdGetTvocInceptiveBaseline _ _ | .cmdSetTvocBaseline _ _
  | .cmdGetSerialId _ _ | .getSerialId | .getFeatureSetVersion | .getIaqBaseline | .setIaqBaseline _ _
  | .getTvocInceptiveBaseline | .setTvocBaseline _ | .measureTest | .setAbsoluteHumidity _ | .crcCompute _
  | .crcVerify _ _ | .reserved _ => p

end Sys2Proof.Machine
end

