-- ==== Sys2Proof/Certificates/Slice0/Obligations.lean ====
section
/-! DEFINITION. The statements for the provers. -/

open Sys2Proof Sys2Proof.Machine

/-! ### Encoding, decoding and the step -/

/-- 30_encoding sections 1 and 3: no operand bit of an encoding is dropped, for every instruction and every operand. -/
def Obligations.DecodeEncodeRoundTrip : Prop :=
  ∀ (cat : Catalog) (i : Instr), cat.opcodesDistinct = true → i.wellFormed cat = true → decode cat (encode cat i) = .ok i

/-- R51, R54: a frame the decoder accepts is the frame of exactly one command, with its checksums and the length that the
catalog entry gives, whatever `P_NARG` is. -/
def Obligations.AcceptedFrameReencodes : Prop :=
  ∀ (cat : Catalog) (bytes : List Byte) (i : Instr), decode cat (.frame bytes) = .ok i →
    encode cat i = .frame bytes ∧
    ∃ c args, i.wire = some (c, args) ∧ bytes = frameOf (cat.entry c).opcode args ∧
      bytes.length = 2 + 3 * (cat.entry c).nArg.val

/-- R54, R31: every frame that the block writes decodes, under its own catalog, as the command whose opcode it holds. -/
def Obligations.WrittenFramesDecode : Prop :=
  ∀ (i : Instr) (s t : State) (e : Event) (addr : BitVec 7) (bytes : List Byte) (r : WriteResult),
    s.cfg.catalog.opcodesDistinct = true → exec i s = .next t → e ∈ newEvents s t → e.call = .write addr bytes r →
    ∃ j c args, decode s.cfg.catalog (.frame bytes) = .ok j ∧ i.issues = some c ∧ j.wire = some (c, args) ∧
      bytes = frameOf (s.cfg.catalog.entry c).opcode args ∧ args.length = (s.cfg.catalog.entry c).nArg.val

/-- R57, R60: every request triple decodes, and what any encoding decodes to is well formed. -/
def Obligations.DecodedInstructionIsWellFormed : Prop :=
  (∀ (cat : Catalog) (op : BitVec 8) (a0 : BitVec 32) (a1 : BitVec 16), ∃ i, decode cat (.request op a0 a1) = .ok i) ∧
  (∀ (cat : Catalog) (e : Encoded) (i : Instr), decode cat e = .ok i → i.wellFormed cat = true)

/-- Words written out from R57 and from 41_catalog R80 to R90, one for each family and each frame format. -/
def Obligations.SpecWordsDecode : Prop :=
  (decode Catalog.default (.request 0x00 0 0)).toOption = some .probe ∧
  (decode Catalog.default (.request 0x08 0x00008001 0x8002)).toOption = some (.setIaqBaseline 0x00008001 0x8002) ∧
  (decode Catalog.default (.request 0x12 0 0)).toOption = some .readRaw ∧
  (decode Catalog.default (.request 0x15 0x00002CEC 0)).toOption = some (.setAbsoluteHumidity 0x00002CEC) ∧
  (decode Catalog.default (.request 0x17 0x00008001 0x0093)).toOption = some (.crcVerify 0x00008001 0x0093) ∧
  (decode Catalog.default (.request 0xFF 0xFFFFFFFF 0xFFFF)).toOption = some (.reserved 0xFF) ∧
  (decode Catalog.default (.frame [0x36, 0x82])).toOption = some .cmdGetSerialId ∧
  (decode Catalog.default (.frame [0x20, 0x77, 0x8F, 0x3C, 0x83])).toOption = some (.cmdSetTvocBaseline (some 0x8F3C)) ∧
  (decode Catalog.default (.frame [0x20, 0x1E, 0x80, 0x02, 0xC0, 0x80, 0x01, 0x93])).toOption =
    some (.cmdSetIaqBaseline (some 0x8002) (some 0x8001))

/-- R3, R6: a step runs the instruction that the next item at the host port encodes, after the time the host let pass. -/
def Obligations.StepRunsDecodedInstruction : Prop :=
  ∀ (s : State) (gap : Nat) (e : Encoded) (rest : List HostInput) (i : Instr),
    s.txn = .idle → s.env.host = { gap := gap, item := .encoded e } :: rest → decode s.cfg.catalog e = .ok i →
    step s = exec i { s with env := { s.env with host := rest, now := s.env.now + gap } }

/-- R12, R61 and the model's choices of log 8, 9 and 12: what a step does where no instruction runs. -/
def Obligations.StepWithoutInstruction : Prop :=
  (∀ s : State, s.txn ≠ .idle → step s = .next s) ∧
  (∀ s : State, s.env.host = [] → step s = .next s) ∧
  (∀ (s : State) (gap : Nat) (bytes : List Byte) (rest : List HostInput) (why : Reject),
    s.txn = .idle → s.env.host = { gap := gap, item := .encoded (.frame bytes) } :: rest →
    decode s.cfg.catalog (.frame bytes) = .error why → step s = .refused (.notACommand why))

/-! ### The CRC unit -/

/-- R72. `CRC_REG` is the CRC unit's own working register, which the computation passes through (R70). -/
def Obligations.CrcComputeReturnsChecksum : Prop :=
  (∀ (a0 : BitVec 32) (s : State), a0.toNat < 2 ^ 16 →
    ∃ c : Byte, c = crc8 (a0.extractLsb' 8 8) (a0.extractLsb' 0 8) ∧
      exec (.crcCompute a0) s =
        .next { s with word0 := c.setWidth 16, wcount := 1, status := 0x0000, crcReg := c, txn := .idle }) ∧
  (∀ (a0 : BitVec 32) (s : State), 2 ^ 16 ≤ a0.toNat → exec (.crcCompute a0) s = .next (refusedWith 0x0021 s)) ∧
  crc8 0x00 0x00 = 0x81 ∧ crc8 0xFF 0xFF = 0xAC ∧ crc8 0xFF 0x00 = 0x00 ∧ crc8 0xD4 0x00 = 0xC6

/-- R73. -/
def Obligations.CrcVerifyReturnsMatch : Prop :=
  (∀ (a0 : BitVec 32) (a1 : BitVec 16) (s : State), a0.toNat < 2 ^ 16 → a1.toNat < 2 ^ 8 →
    ∃ c : Byte, c = crc8 (a0.extractLsb' 8 8) (a0.extractLsb' 0 8) ∧
      exec (.crcVerify a0 a1) s =
        .next { s with b := decide (c = a1.extractLsb' 0 8), wcount := 0, status := 0x0000, crcReg := c, txn := .idle }) ∧
  (∀ (a0 : BitVec 32) (a1 : BitVec 16) (s : State), 2 ^ 16 ≤ a0.toNat ∨ 2 ^ 8 ≤ a1.toNat →
    exec (.crcVerify a0 a1) s = .next (refusedWith 0x0021 s)) ∧
  (∀ b0 b1 : Byte, ∃ c : Byte, ∀ c' : Byte, verify b0 b1 c' = true ↔ c' = c) ∧
  verify 0x80 0x01 0x93 = true ∧ verify 0x80 0x01 0x92 = false

/-- 40_checksum sections 1 and 3: a word whose triple has one wrong byte, whichever it is, is never accepted. -/
def Obligations.SingleByteErrorIsDetected : Prop :=
  ∀ b0 b1 c b' : Byte, verify b0 b1 c = true →
    (b' ≠ b0 → verify b' b1 c = false) ∧ (b' ≠ b1 → verify b0 b' c = false) ∧ (b' ≠ c → verify b0 b1 b' = false)

/-! ### Requests refused before any bus I/O -/

/-- R60. -/
def Obligations.ReservedCodeIsIllegalRequest : Prop :=
  ∀ (cat : Catalog) (op : BitVec 8) (a0 : BitVec 32) (a1 : BitVec 16) (s : State), 0x18 ≤ op.toNat →
    decode cat (.request op a0 a1) = .ok (.reserved op) ∧ exec (.reserved op) s = .next (refusedWith 0x0044 s)

/-- R58: an operand wider than its field, in every phase. -/
def Obligations.OverwideOperandIsRefused : Prop :=
  (∀ (a0 : BitVec 32) (a1 : BitVec 16) (s : State), 2 ^ 16 ≤ a0.toNat →
    exec (.setIaqBaseline a0 a1) s = .next (refusedWith 0x0021 s) ∧
    exec (.setTvocBaseline a0) s = .next (refusedWith 0x0021 s) ∧
    exec (.crcCompute a0) s = .next (refusedWith 0x0021 s) ∧
    exec (.crcVerify a0 a1) s = .next (refusedWith 0x0021 s)) ∧
  (∀ (a0 : BitVec 32) (a1 : BitVec 16) (s : State), 2 ^ 8 ≤ a1.toNat →
    exec (.crcVerify a0 a1) s = .next (refusedWith 0x0021 s)) ∧
  (∀ (a0 : BitVec 32) (s : State), 2 ^ 31 ≤ a0.toNat → exec (.setAbsoluteHumidity a0) s = .next (refusedWith 0x0011 s))

/-- R129: the humidity range, its bounds inclusive, checked in every phase and before every other check. -/
def Obligations.HumidityRangeIsValidated : Prop :=
  ∀ (a0 : BitVec 32) (s : State),
    (¬(0 ≤ a0.toInt ∧ a0.toInt ≤ 256000) → exec (.setAbsoluteHumidity a0) s = .next (refusedWith 0x0011 s)) ∧
    (0 ≤ a0.toInt ∧ a0.toInt ≤ 256000 →
      ∀ t, exec (.setAbsoluteHumidity a0) s = .next t → t.status ≠ 0x0011)

/-- R142, R91: what is accepted while a measurement is in flight, and what a split read needs. For a wire command that it is
refused so is the model's choice (log 10). -/
def Obligations.InFlightGuard : Prop :=
  ∀ s : State,
    (s.phase = 3 →
      (∀ (i : Instr) (c : Cmd), i.issues = some c → i.operandsValid → exec i s = .next (refusedWith 0x0054 s)) ∧
      (∀ k : Kind, k ≠ s.kind → exec k.readRequest s = .next (refusedWith 0x0054 s)) ∧
      (∀ a0 : BitVec 32, a0.toNat < 2 ^ 16 → ∃ t, exec (.crcCompute a0) s = .next t ∧ t.status = 0 ∧ t.env = s.env) ∧
      (∀ (a0 : BitVec 32) (a1 : BitVec 16), a0.toNat < 2 ^ 16 → a1.toNat < 2 ^ 8 →
        ∃ t, exec (.crcVerify a0 a1) s = .next t ∧ t.status = 0 ∧ t.env = s.env)) ∧
    (s.phase.toNat ≤ 4 → s.phase ≠ 3 → ∀ k : Kind, exec k.readRequest s = .next (refusedWith 0x0014 s))

/-- R91: a command is issued only in the phases of its column; elsewhere the request is refused, with no bus I/O. For a wire
command this is the model's choice (log 10). -/
def Obligations.PhaseGateRefuses : Prop :=
  ∀ (i : Instr) (c : Cmd) (s : State), i.issues = some c → i.operandsValid → s.phase.toNat ≤ 4 → ¬phaseAllows c s.phase →
    exec i s = .next (refusedWith (if s.phase = 3 then 0x0054 else 0x0014) s)

/-- R126: the feature-set gate of the two TVOC-baseline commands; it passes exactly above the threshold. For a wire command
this is the model's choice (log 10). -/
def Obligations.FeatureSetGateRefuses : Prop :=
  ∀ (i : Instr) (c : Cmd) (s : State), i.issues = some c → gatedByFeatureSet c → i.operandsValid → s.phase = 2 →
    (¬featureSetOpen s → exec i s = .next (refusedWith 0x0034 s)) ∧
    (featureSetOpen s → ∀ t, exec i s = .next t → t.status ≠ 0x0034)

/-- R155: an early split read is refused, changes nothing that it checks, and is not refused once the wait is over. -/
def Obligations.EarlyReadIsRefused : Prop :=
  ∀ (k : Kind) (s : State), s.phase = 3 → s.kind = k →
    ((BitVec.ofNat 64 s.env.now - s.tIssue).toNat < s.tWait.toNat →
      exec k.readRequest s = .next (refusedWith 0x0015 s)) ∧
    (s.tWait.toNat ≤ (BitVec.ofNat 64 s.env.now - s.tIssue).toNat →
      ∀ t, exec k.readRequest s = .next t → t.status ≠ 0x0015)

/-- R10: an instruction that reads `PHASE` and finds a code that is never written stops the machine. That only an instruction
that reads `PHASE` finds it is the model's choice (log 21), and so is, for a wire command, that it is one (log 10). -/
def Obligations.IllegalPhaseFaults : Prop :=
  ∀ s : State, 5 ≤ s.phase.toNat →
    (∀ (i : Instr) (c : Cmd), i.issues = some c → i.operandsValid → exec i s = .fault (.illegalPhase s.phase)) ∧
    (∀ k : Kind, exec k.readRequest s = .fault (.illegalPhase s.phase))

/-! ### The protocol engine -/

/-- R103: the wait that follows the issue of a command ends with the wait elapsed. Every sleep asks for what is left of it,
the first for all of it; nothing but the clock and the record of the calls changes meanwhile (R197). -/
def Obligations.WaitPathHoldsTheWait : Prop :=
  ∀ s : State, s.tIssue = BitVec.ofNat 64 s.env.now →
    ∃ slept,
      s.tWait.toNat ≤ (BitVec.ofNat 64 (waitPath s).env.now - s.tIssue).toNat ∧
      waitPath s = { s with txn := .wait, env := (waitPath s).env } ∧
      (waitPath s).env.host = s.env.host ∧ (waitPath s).env.writes = s.env.writes ∧
      (waitPath s).env.reads = s.env.reads ∧ s.env.now ≤ (waitPath s).env.now ∧
      (waitPath s).env.trace = s.env.trace ++ slept ∧ slept ≠ [] ∧
      ∀ e ∈ slept, e.txn = .wait ∧
        e.call = .sleep (s.tWait.toNat - (BitVec.ofNat 64 e.time - s.tIssue).toNat)

/-- R74, R106: what the read path makes of an answer. Every triple is verified before any word is written; the lowest
failing one is reported. -/
def Obligations.ReadPathVerifiesEveryTriple : Prop :=
  ∀ (c : Cmd) (m : Nat) (bs : List Byte) (s : State),
    (s.cfg.catalog.entry c).nResp.val = m → m ≠ 0 → readAnswers s (.bytes bs) → bs.length = 3 * m →
    ((∀ i < m, badTriple bs i = false) →
      ∃ t, readPath c s = .ok t ∧ t.wcount.toNat = m ∧
        [t.word0, t.word1, t.word2].take m = (List.range m).map fun i => bs.getD (3 * i) 0 ++ bs.getD (3 * i + 1) 0) ∧
    (∀ i < m, badTriple bs i = true → (∀ j < i, badTriple bs j = false) →
      ∃ t e, readPath c s = .err e t ∧ statusOf e = BitVec.ofNat 16 (0x0813 + 0x0100 * i) ∧
        t.word0 = s.word0 ∧ t.word1 = s.word1 ∧ t.word2 = s.word2)

/-- R102, R172, R178: a write that fails ends the request, with nothing but the write done and no issue recorded.
For a wire command that it is an instruction is the model's choice (log 10). -/
def Obligations.FailedWriteIsReported : Prop :=
  ∀ (i : Instr) (c : Cmd) (s : State) (r : WriteResult),
    i.issues = some c → i.operandsValid → mayIssue c s → (s.cfg.catalog.entry c).nArg.val = i.argCount →
    writeAnswers s r → r ≠ .ack →
    ∃ t frame, exec i s = .next t ∧ failed t (if r = .nack then 0x0412 else 0x0422) s.session ∧
      t.pendCmd = s.pendCmd ∧ t.tIssue = s.tIssue ∧ t.tWait = s.tWait ∧
      t.env.trace = s.env.trace ++ [{ time := s.env.now, txn := .write, call := .write s.cfg.addr frame r }]

/-- R104, R106, R173, R178: a response that does not come, has the wrong length, or fails a checksum ends a `FULL` request
with nothing of it kept. For a wire command that it is an instruction is the model's choice (log 10). -/
def Obligations.FailedReadIsReported : Prop :=
  ∀ (i : Instr) (c : Cmd) (m : Nat) (s : State) (r : ReadResult),
    i.issues = some c → (∀ k : Kind, i ≠ k.measureRequest ∧ i ≠ k.blockingRequest) → i.operandsValid → mayIssue c s →
    countsAre s c i.argCount m → m ≠ 0 → writeAnswers s .ack → readAnswers s r → readStatus m r ≠ 0 →
    ∃ t, exec i s = .next t ∧ failed t (readStatus m r) s.session ∧ issueRecorded s t c

/-- R156, R178: a read-path error of a split read or a blocking read ends the measurement, and every other session register,
`KIND` among them, holds what it held before the request. -/
def Obligations.FailedMeasurementReadEndsIt : Prop :=
  ∀ (k : Kind) (m : Nat) (s : State) (r : ReadResult),
    (s.cfg.catalog.entry k.cmd).nArg.val = 0 → (s.cfg.catalog.entry k.cmd).nResp.val = m → m ≠ 0 →
    readAnswers s r → readStatus m r ≠ 0 →
    (s.phase = 3 → s.kind = k → waitElapsed s = true →
      ∃ t, exec k.readRequest s = .next t ∧ failed t (readStatus m r) { s.session with phase := 2 }) ∧
    (s.phase = 2 → writeAnswers s .ack →
      ∃ t, exec k.blockingRequest s = .next t ∧ failed t (readStatus m r) { s.session with phase := 2 })

/-- R108: at most one write, at most one read, in that order, the sleeps between them; a refused request makes neither. -/
def Obligations.AtMostOneExchange : Prop :=
  ∀ (i : Instr) (s t : State), exec i s = .next t →
    ∃ written slept read : List Event,
      t.env.trace = s.env.trace ++ written ++ slept ++ read ∧
      written.length ≤ 1 ∧ (∀ e ∈ written, e.isWrite = true) ∧ (∀ e ∈ slept, e.isSleep = true) ∧
      read.length ≤ 1 ∧ (∀ e ∈ read, e.isRead = true) ∧
      (errKind t.status ≠ 0 → errStage t.status = 0 → written = [] ∧ slept = [] ∧ read = [])

/-- R101, R19, R26: the frame is assembled in `TXBUF` from the opcode and the argument words in `ARG`, and what the transport
answers stands in `RXBUF` (its first nine bytes: log 17). Without a write `TXBUF`, `ARG` and `NARG` stay; without an answer
`RXBUF` does. -/
def Obligations.BuffersHoldTheTransaction : Prop :=
  ∀ (i : Instr) (s t : State), exec i s = .next t →
    (∀ e ∈ newEvents s t, ∀ addr bytes r, e.call = .write addr bytes r →
      t.txbuf = bytes ∧ ∃ c, i.issues = some c ∧
        bytes = frameOf (s.cfg.catalog.entry c).opcode ([t.arg0, t.arg1].take (s.cfg.catalog.entry c).nArg.val)) ∧
    ((∀ e ∈ newEvents s t, e.isWrite = false) →
      t.txbuf = s.txbuf ∧ t.arg0 = s.arg0 ∧ t.arg1 = s.arg1 ∧ t.narg = s.narg) ∧
    (∀ e ∈ newEvents s t, ∀ addr n bs, e.call = .read addr n (.bytes bs) → t.rxbuf = bs.take 9) ∧
    ((∀ e ∈ newEvents s t, ∀ addr n bs, e.call ≠ .read addr n (.bytes bs)) → t.rxbuf = s.rxbuf)

/-- R30, R31, R35, R36: every write is a catalog command's frame, of its length, and every read asks for a catalog
response's length; both at the one address. -/
def Obligations.BusCallsFollowTheCatalog : Prop :=
  ∀ (i : Instr) (s t : State) (e : Event), exec i s = .next t → e ∈ newEvents s t →
    (∀ addr bytes r, e.call = .write addr bytes r →
      addr = s.cfg.addr ∧ ∃ c args, bytes = frameOf (s.cfg.catalog.entry c).opcode args ∧
        args.length = (s.cfg.catalog.entry c).nArg.val ∧ bytes.length = 2 + 3 * args.length) ∧
    (∀ addr n r, e.call = .read addr n r →
      addr = s.cfg.addr ∧ n ≠ 0 ∧ ∃ c, n = 3 * (s.cfg.catalog.entry c).nResp.val)

/-! ### The results of the instructions -/

/-- 41_catalog section 2 and R100: a wire command as a step runs its exchange and keeps every session register; its words
stand in wire order. That a wire command is a step of its own is the model's choice (log 10). -/
def Obligations.WireCommandsRunTheirExchange : Prop :=
  ∀ (i : Instr) (c : Cmd) (args ws : List Word) (s : State),
    i.wire = some (c, args) → mayIssue c s → countsAre s c args.length ws.length → writeAnswers s .ack →
    (ws ≠ [] → readAnswers s (.bytes (triples ws))) →
    ∃ t, exec i s = .next t ∧ completed t ws s.session ∧ issueRecorded s t c ∧
      exchange s t (frameOf (s.cfg.catalog.entry c).opcode args) (triples ws)

/-- R120. -/
def Obligations.ProbeReachesProbed : Prop :=
  ∀ (s : State) (w : Word),
    mayIssue .getFeatureSet s → countsAre s .getFeatureSet 0 1 → writeAnswers s .ack → readAnswers s (.bytes (triple w)) →
    ∃ t, exec .probe s = .next t ∧
      completed t [] { s.session with phase := if s.phase = 0 then 1 else s.phase, fsReg := w, fsValid := true } ∧
      issueRecorded s t .getFeatureSet ∧
      exchange s t (frameOf (s.cfg.catalog.entry .getFeatureSet).opcode []) (triple w)

/-- R121: the three words in wire order, uninterpreted. -/
def Obligations.SerialIdIsThreeWords : Prop :=
  ∀ (s : State) (w0 w1 w2 : Word),
    mayIssue .getSerialId s → countsAre s .getSerialId 0 3 → writeAnswers s .ack →
    readAnswers s (.bytes (triple w0 ++ triple w1 ++ triple w2)) →
    ∃ t, exec .getSerialId s = .next t ∧ completed t [w0, w1, w2] s.session ∧ issueRecorded s t .getSerialId ∧
      exchange s t (frameOf (s.cfg.catalog.entry .getSerialId).opcode []) (triple w0 ++ triple w1 ++ triple w2)

/-- R122: the whole word is returned and cached; the phase stays. -/
def Obligations.FeatureSetVersionIsCached : Prop :=
  ∀ (s : State) (w : Word),
    mayIssue .getFeatureSet s → countsAre s .getFeatureSet 0 1 → writeAnswers s .ack → readAnswers s (.bytes (triple w)) →
    ∃ t, exec .getFeatureSetVersion s = .next t ∧
      completed t [w] { s.session with fsReg := w, fsValid := true } ∧ issueRecorded s t .getFeatureSet ∧
      exchange s t (frameOf (s.cfg.catalog.entry .getFeatureSet).opcode []) (triple w)

/-- R123, R105: write, wait, no read. -/
def Obligations.IaqInitReachesInitialized : Prop :=
  ∀ s : State,
    mayIssue .iaqInit s → countsAre s .iaqInit 0 0 → writeAnswers s .ack →
    ∃ t, exec .iaqInit s = .next t ∧ completed t [] { s.session with phase := 2 } ∧ issueRecorded s t .iaqInit ∧
      exchange s t (frameOf (s.cfg.catalog.entry .iaqInit).opcode []) []

/-- R124: the pair is returned and cached verbatim. -/
def Obligations.GetIaqBaselineReturnsPair : Prop :=
  ∀ (s : State) (co2eq tvoc : Word),
    mayIssue .getIaqBaseline s → countsAre s .getIaqBaseline 0 2 → writeAnswers s .ack →
    readAnswers s (.bytes (triple co2eq ++ triple tvoc)) →
    ∃ t, exec .getIaqBaseline s = .next t ∧
      completed t [co2eq, tvoc] { s.session with baseReg := co2eq ++ tvoc, baseValid := true } ∧
      issueRecorded s t .getIaqBaseline ∧
      exchange s t (frameOf (s.cfg.catalog.entry .getIaqBaseline).opcode []) (triple co2eq ++ triple tvoc)

/-- R125: the pair is written in the order of `P_SETBASE_ORDER`, and cached. -/
def Obligations.SetIaqBaselineWritesPair : Prop :=
  ∀ (s : State) (a0 : BitVec 32) (tvoc co2eq : Word),
    a0.toNat < 2 ^ 16 → co2eq = a0.extractLsb' 0 16 →
    mayIssue .setIaqBaseline s → countsAre s .setIaqBaseline 2 0 → writeAnswers s .ack →
    ∃ t, exec (.setIaqBaseline a0 tvoc) s = .next t ∧
      completed t [] { s.session with baseReg := co2eq ++ tvoc, baseValid := true } ∧ issueRecorded s t .setIaqBaseline ∧
      (s.cfg.setBaseTvocAt = .first →
        exchange s t (frameOf (s.cfg.catalog.entry .setIaqBaseline).opcode [tvoc, co2eq]) []) ∧
      (s.cfg.setBaseTvocAt = .second →
        exchange s t (frameOf (s.cfg.catalog.entry .setIaqBaseline).opcode [co2eq, tvoc]) [])

/-- R127. -/
def Obligations.TvocInceptiveBaselineIsReturned : Prop :=
  ∀ (s : State) (w : Word),
    mayIssue .getTvocInceptiveBaseline s → countsAre s .getTvocInceptiveBaseline 0 1 → writeAnswers s .ack →
    readAnswers s (.bytes (triple w)) →
    ∃ t, exec .getTvocInceptiveBaseline s = .next t ∧ completed t [w] s.session ∧
      issueRecorded s t .getTvocInceptiveBaseline ∧
      exchange s t (frameOf (s.cfg.catalog.entry .getTvocInceptiveBaseline).opcode []) (triple w)

/-- R128: the value is written verbatim. -/
def Obligations.SetTvocBaselineWritesValue : Prop :=
  ∀ (s : State) (a0 : BitVec 32), a0.toNat < 2 ^ 16 →
    mayIssue .setTvocBaseline s → countsAre s .setTvocBaseline 1 0 → writeAnswers s .ack →
    ∃ t, exec (.setTvocBaseline a0) s = .next t ∧ completed t [] s.session ∧ issueRecorded s t .setTvocBaseline ∧
      exchange s t (frameOf (s.cfg.catalog.entry .setTvocBaseline).opcode [a0.extractLsb' 0 16]) []

/-- R131: every valid operand makes exactly one write, of its compensation word; 0 sends `0x0000`. -/
def Obligations.HumidityWritesCompensation : Prop :=
  ∀ (s : State) (a0 : BitVec 32), 0 ≤ a0.toInt → a0.toInt ≤ 256000 →
    mayIssue .setAbsoluteHumidity s → countsAre s .setAbsoluteHumidity 1 0 → writeAnswers s .ack →
    ∃ t h, exec (.setAbsoluteHumidity a0) s = .next t ∧
      (a0 = 0 → h = 0) ∧ (a0 ≠ 0 → h = s.cfg.humScale.apply a0.toNat) ∧
      completed t [] s.session ∧ issueRecorded s t .setAbsoluteHumidity ∧
      exchange s t (frameOf (s.cfg.catalog.entry .setAbsoluteHumidity).opcode [h]) []

/-- R130, with the default scale: the formula, its corner cases, and that it maps `[0, 256000]` onto 16 bits. -/
def Obligations.HumidityScaleIsOnto : Prop :=
  (∀ v : Nat, v ≤ 256000 →
    (humidityWord Params.default (BitVec.ofNat 32 v)).toNat = v * 256 * 16777 / 2 ^ 24) ∧
  (∀ h : Word, ∃ v : Nat, v ≤ 256000 ∧ humidityWord Params.default (BitVec.ofNat 32 v) = h) ∧
  (∀ v : Nat, v ≤ 3 → humidityWord Params.default (BitVec.ofNat 32 v) = 0x0000) ∧
  humidityWord Params.default 1000 = 0x00FF ∧ humidityWord Params.default 256000 = 0xFFFF

/-- R132: the word is returned, and `B` says whether it is the sentinel. -/
def Obligations.SelfTestComparesSentinel : Prop :=
  ∀ (s : State) (w : Word),
    mayIssue .measureTest s → countsAre s .measureTest 0 1 → writeAnswers s .ack → readAnswers s (.bytes (triple w)) →
    ∃ t, exec .measureTest s = .next t ∧ completed t [w] { s.session with b := decide (w = s.cfg.testPass) } ∧
      issueRecorded s t .measureTest ∧
      exchange s t (frameOf (s.cfg.catalog.entry .measureTest).opcode []) (triple w)

/-- R143, R146, R149, R152: a split measure writes, records the issue and its kind, and does not wait. -/
def Obligations.SplitMeasureStarts : Prop :=
  ∀ (k : Kind) (s : State),
    s.phase = 2 → (s.cfg.catalog.entry k.cmd).nArg.val = 0 → writeAnswers s .ack →
    ∃ t, exec k.measureRequest s = .next t ∧ completed t [] { s.session with phase := 3, kind := k } ∧
      issueRecorded s t k.cmd ∧ t.env.host = s.env.host ∧
      t.env.trace = s.env.trace ++ [⟨s.env.now, .write,
        .write s.cfg.addr (frameOf (s.cfg.catalog.entry k.cmd).opcode []) .ack⟩]

/-- R144, R147, R150, R153, R141: a split read after the wait reads the whole response and returns its decoded words, for
every `P_IAQ_MAP` and `P_RAW_MAP`. -/
def Obligations.SplitReadReturnsDecoded : Prop :=
  ∀ (k : Kind) (s : State) (w0 w1 : Word),
    s.phase = 3 → s.kind = k → s.tWait.toNat ≤ (BitVec.ofNat 64 s.env.now - s.tIssue).toNat →
    (s.cfg.catalog.entry k.cmd).nResp.val = 2 → readAnswers s (.bytes (triple w0 ++ triple w1)) →
    ∃ t, exec k.readRequest s = .next t ∧ completed t (k.decoded s.cfg w0 w1) { s.session with phase := 2 } ∧
      t.pendCmd = s.pendCmd ∧ t.tIssue = s.tIssue ∧ t.tWait = s.tWait ∧ t.env.host = s.env.host ∧
      t.env.trace = s.env.trace ++ [⟨s.env.now, .read,
        .read s.cfg.addr 6 (.bytes (triple w0 ++ triple w1))⟩]

/-- R145, R148, R151, R154, R141: a blocking read writes, waits and reads in one request, returns its decoded words for every
`P_IAQ_MAP` and `P_RAW_MAP`, and ends in `IAQInitialized`. -/
def Obligations.BlockingReadReturnsDecoded : Prop :=
  ∀ (k : Kind) (s : State) (w0 w1 : Word),
    s.phase = 2 → countsAre s k.cmd 0 2 → writeAnswers s .ack →
    readAnswers s (.bytes (triple w0 ++ triple w1)) →
    ∃ t, exec k.blockingRequest s = .next t ∧ completed t (k.decoded s.cfg w0 w1) { s.session with kind := k } ∧
      issueRecorded s t k.cmd ∧
      exchange s t (frameOf (s.cfg.catalog.entry k.cmd).opcode []) (triple w0 ++ triple w1)

/-- R157: with the same answers of the sensor, good or bad, the blocking read and the split pair give the same response, the
same phase and the same session registers, by the same write and the same read. `KIND` is the same after a good response; after
an error each request leaves it as it found it (R178), which is the model's reading of rules that differ (log 15). -/
def Obligations.BlockingEqualsSplit : Prop :=
  ∀ (k : Kind) (s : State) (r : ReadResult),
    s.phase = 2 → countsAre s k.cmd 0 2 → writeAnswers s .ack → readAnswers s r →
    ∃ t m, exec k.blockingRequest s = .next t ∧ exec k.measureRequest s = .next m ∧
      ∀ idle : Nat, waitElapsed { m with env := { m.env with now := m.env.now + idle } } = true →
        ∃ u, exec k.readRequest { m with env := { m.env with now := m.env.now + idle } } = .next u ∧
          hostResponse u = hostResponse t ∧ u.phase = t.phase ∧ { u.session with kind := t.kind } = t.session ∧
          (t.status = 0 → u.kind = t.kind) ∧
          (newEvents s u).map Event.call = ((newEvents s t).filter fun e => !e.isSleep).map Event.call

/-! ### The machine as a whole -/

/-- 10_state section 6 (R25) and R190: what reset leaves, at power-up and at the construction of a new session. -/
def Obligations.ResetLeavesSpecifiedValues : Prop :=
  (State.reset.phase = 0 ∧ State.reset.txn = .idle ∧ State.reset.fsValid = false ∧ State.reset.baseValid = false ∧
    State.reset.wcount = 0 ∧ State.reset.status = 0x0000 ∧ State.reset.narg = 0 ∧ State.reset.txbuf = [] ∧
    State.reset.rxbuf = [] ∧ State.reset.b = false ∧ State.reset.cfg = Params.default) ∧
  (∀ (s : State) (gap : Nat) (rest : List HostInput),
    s.txn = .idle → s.env.host = { gap := gap, item := .newSession } :: rest →
    ∃ t, step s = .next t ∧ t.phase = 0 ∧ t.txn = .idle ∧ t.fsValid = false ∧ t.baseValid = false ∧ t.wcount = 0 ∧
      t.status = 0x0000 ∧ t.narg = 0 ∧ t.txbuf = [] ∧ t.rxbuf = [] ∧ t.b = false ∧ t.cfg = s.cfg ∧
      t.env = { s.env with host := rest, now := s.env.now + gap })

/-- The state after reset meets the invariant. -/
def Obligations.ResetMeetsInvariant : Prop :=
  State.reset.Inv ∧ State.reset.waitKept

/-- Every step keeps the invariant. -/
def Obligations.StepKeepsInvariant : Prop :=
  ∀ s t : State, s.Inv → step s = .next t → t.Inv

/-- R42, R194: from a state in which the wait is kept, no step writes or reads before the wait of the command before it is
over, and the wait is kept after it. The clock does not pass its 64 bits (R182). After a new session the wait is kept because
`T_ISSUE` and `T_WAIT` are 0 then, which is the model's choice (log 1, log 20). -/
def Obligations.NoBusCallBeforeTheWait : Prop :=
  ∀ s t : State, s.waitKept → step s = .next t → t.env.now < 2 ^ 64 →
    t.waitKept ∧
    ∀ e ∈ newEvents s t,
      (e.isWrite = true → s.tIssue.toNat + s.tWait.toNat ≤ e.time) ∧
      (e.isRead = true → t.tIssue.toNat + t.tWait.toNat ≤ e.time)

/-- R140: the phase after every instruction, by the table of transitions; no other transition exists. -/
def Obligations.PhaseFollowsTheTable : Prop :=
  ∀ (i : Instr) (s t : State), exec i s = .next t →
    t.phase = phaseAfter i s.phase t.status ∧ (t.phase = 3 → s.phase ≠ 3 → ∃ k : Kind, i = k.measureRequest ∧ t.kind = k)

/-- R14, R15, R27, R11: the only writers of `FS_REG`, `BASE_REG`, `B` and `KIND`. -/
def Obligations.OnlyTheirRequestsWriteRegisters : Prop :=
  ∀ (i : Instr) (s t : State), exec i s = .next t →
    ((t.fsReg ≠ s.fsReg ∨ t.fsValid ≠ s.fsValid) → t.status = 0 ∧ (i = .probe ∨ i = .getFeatureSetVersion)) ∧
    ((t.baseReg ≠ s.baseReg ∨ t.baseValid ≠ s.baseValid) →
      t.status = 0 ∧ (i = .getIaqBaseline ∨ ∃ a0 a1, i = .setIaqBaseline a0 a1)) ∧
    (t.b ≠ s.b → t.status = 0 ∧ (i = .measureTest ∨ ∃ a0 a1, i = .crcVerify a0 a1)) ∧
    (t.kind ≠ s.kind → t.status = 0 ∧ ∃ k : Kind, t.kind = k ∧ (i = k.measureRequest ∨ i = k.blockingRequest))

/-- R13, R102, R20, R70, R75: the issue registers change only where a write was acknowledged, to that command, and `CRC_REG`
only where a checksum is computed: in a CRC request, for a frame with argument words, or over an answer of the length asked
for. -/
def Obligations.OnlyTrafficWritesItsRegisters : Prop :=
  ∀ (i : Instr) (s t : State), exec i s = .next t →
    ((t.pendCmd ≠ s.pendCmd ∨ t.tIssue ≠ s.tIssue ∨ t.tWait ≠ s.tWait) →
      i.issues = some t.pendCmd ∧ t.tWait = (s.cfg.catalog.entry t.pendCmd).waitUs ∧
      ∃ e ∈ newEvents s t, ∃ bytes, e.call = .write s.cfg.addr bytes .ack) ∧
    (t.crcReg ≠ s.crcReg →
      (∃ a0, i = .crcCompute a0) ∨ (∃ a0 a1, i = .crcVerify a0 a1) ∨
      ∃ e ∈ newEvents s t,
        (∃ addr bytes r, e.call = .write addr bytes r ∧ 2 < bytes.length) ∨
        (∃ addr bs, e.call = .read addr bs.length (.bytes bs)))

/-- R178: after an error the session registers hold what they held, but for `PHASE` after a read-path error of a read. -/
def Obligations.ErrorsArePrecise : Prop :=
  ∀ (i : Instr) (s t : State), exec i s = .next t → t.status ≠ 0 →
    t.wcount = 0 ∧ t.txn = .idle ∧ t.fsReg = s.fsReg ∧ t.fsValid = s.fsValid ∧ t.baseReg = s.baseReg ∧
    t.baseValid = s.baseValid ∧ t.b = s.b ∧ t.word0 = s.word0 ∧ t.word1 = s.word1 ∧ t.word2 = s.word2 ∧
    t.kind = s.kind ∧
    (errStage t.status = 2 → (∃ k : Kind, i = k.readRequest ∨ i = k.blockingRequest) → t.phase = 2) ∧
    (errStage t.status ≠ 2 ∨ (∀ k : Kind, i ≠ k.readRequest ∧ i ≠ k.blockingRequest) → t.phase = s.phase) ∧
    (errStage t.status ≠ 2 → t.pendCmd = s.pendCmd ∧ t.tIssue = s.tIssue ∧ t.tWait = s.tWait)

/-- R17, R170: every instruction leaves a `STATUS` of the table, so that the host can always read its response. -/
def Obligations.StatusIsAlwaysLegal : Prop :=
  ∀ (i : Instr) (s t : State), exec i s = .next t →
    legalStatus t.status = true ∧ ∃ words, hostResponse t = .ok { status := t.status, words := words, b := t.b } ∧
      words.length = t.wcount.toNat

/-- R200, R43: no step changes the catalog or a parameter. -/
def Obligations.ParametersNeverChange : Prop :=
  ∀ s t : State, step s = .next t → t.cfg = s.cfg

/-- R182, R40: time never goes back, and no port call is taken back. -/
def Obligations.TimeNeverGoesBack : Prop :=
  ∀ s t : State, step s = .next t →
    s.env.now ≤ t.env.now ∧ ∃ es, t.env.trace = s.env.trace ++ es ∧ ∀ e ∈ es, s.env.now ≤ e.time ∧ e.time ≤ t.env.now

/-- R12, R107, R179: a request that was accepted is handled to its end; the block is at once ready for the next. -/
def Obligations.RequestEndsIdle : Prop :=
  ∀ (i : Instr) (s t : State), exec i s = .next t → t.txn = .idle ∧ t.env.host = s.env.host

/-- R26: a `WORD` or an `ARG` beyond its count holds no value. -/
def Obligations.RegisterBeyondCountFaults : Prop :=
  ∀ (i : Nat) (s : State),
    (s.wcount.toNat ≤ i → readWord i s = .error (.wordNoValue i)) ∧
    (s.narg.toNat ≤ i → readArg i s = .error (.argNoValue i)) ∧
    (i < s.wcount.toNat → readWord i s = .ok ([s.word0, s.word1, s.word2].getD i 0)) ∧
    (i < s.narg.toNat → i < 2 → readArg i s = .ok ([s.arg0, s.arg1].getD i 0))

/-- R17, R170: the host's reading of a `STATUS` that is never written faults: a reserved bit set, an `ERR_KIND` or an
`ERR_STAGE` that does not exist, or an `ERR_SUB` that the table does not list for the kind. -/
def Obligations.IllegalStatusFaults : Prop :=
  ∀ s : State,
    (statusReserved s.status ≠ 0 ∨ 6 ≤ (errKind s.status).toNat ∨ errStage s.status = 3 ∨
      (errKind s.status = 0 ∧ errSub s.status ≠ 0) ∨
      ((errKind s.status = 1 ∨ errKind s.status = 2) ∧ errSub s.status ≠ 1 ∧ errSub s.status ≠ 2) ∨
      ((errKind s.status = 3 ∨ errKind s.status = 5) ∧ errSub s.status ≠ 1) ∨
      (errKind s.status = 4 ∧ (errSub s.status = 0 ∨ 6 ≤ (errSub s.status).toNat))) →
    hostResponse s = .error (.illegalStatus s.status)
end

