-- ==== Sys2Proof/Laws/Encoding.lean ====
section
/-! SUPPORT. Small lemmas about bytes, words, triples, frames and the decoder, so that no later proof unfolds them. -/

namespace Sys2Proof

open Sys2Proof.Machine

/-! ### Bytes and words -/

namespace Machine

theorem toNat_wordOf (b0 b1 : Byte) : (wordOf b0 b1).toNat = 256 * b0.toNat + b1.toNat := by
  have := b1.isLt
  unfold wordOf
  rw [BitVec.toNat_append, Nat.shiftLeft_eq, Nat.mul_comm, ← Nat.two_pow_add_eq_or_of_lt (by omega)]

theorem toNat_hiByte (w : Word) : (hiByte w).toNat = w.toNat / 256 := by
  have := w.isLt
  unfold hiByte
  rw [BitVec.extractLsb'_toNat, Nat.shiftRight_eq_div_pow]
  omega

theorem toNat_loByte (w : Word) : (loByte w).toNat = w.toNat % 256 := by
  unfold loByte
  rw [BitVec.extractLsb'_toNat]
  rfl

@[simp] theorem wordOf_hiByte_loByte (w : Word) : wordOf (hiByte w) (loByte w) = w :=
  BitVec.eq_of_toNat_eq (by rw [toNat_wordOf, toNat_hiByte, toNat_loByte]; omega)

@[simp] theorem hiByte_wordOf (b0 b1 : Byte) : hiByte (wordOf b0 b1) = b0 :=
  BitVec.eq_of_toNat_eq (by have := b1.isLt; rw [toNat_hiByte, toNat_wordOf]; omega)

@[simp] theorem loByte_wordOf (b0 b1 : Byte) : loByte (wordOf b0 b1) = b1 :=
  BitVec.eq_of_toNat_eq (by have := b1.isLt; rw [toNat_loByte, toNat_wordOf]; omega)

theorem verify_iff (b0 b1 c : Byte) : verify b0 b1 c = true ↔ crc8 b0 b1 = c := by simp [verify]

@[simp] theorem verify_triple (w : Word) : verify (hiByte w) (loByte w) (crc8 (hiByte w) (loByte w)) = true :=
  (verify_iff _ _ _).2 rfl

@[simp] theorem triples_nil : triples [] = [] := rfl

@[simp] theorem triples_cons (w : Word) (ws : List Word) :
    triples (w :: ws) = hiByte w :: loByte w :: crc8 (hiByte w) (loByte w) :: triples ws := rfl

@[simp] theorem triples_length (ws : List Word) : (triples ws).length = 3 * ws.length := by
  induction ws with
  | nil => rfl
  | cons w ws ih => simp only [triples_cons, List.length_cons, ih]; omega

end Machine

/-! ### Decoding a frame -/

/-- The triples of some words decode to these words. -/
@[simp] theorem decodeTriples_triples (ws : List Word) : ∀ i : Nat, decodeTriples i (triples ws) = .ok (some ws) := by
  induction ws with
  | nil => intro i; rfl
  | cons w ws ih => intro i; simp only [triples_cons, decodeTriples, verify_triple, if_true, ih, wordOf_hiByte_loByte]

/-- Bytes that decode to words are the triples of these words. -/
theorem triples_of_decodeTriples : ∀ (bs : List Byte) (i : Nat) (ws : List Word),
    decodeTriples i bs = .ok (some ws) → bs = triples ws
  | b0 :: b1 :: c :: rest, i, ws, h => by
    simp only [decodeTriples] at h
    split at h
    · rename_i hv
      split at h
      all_goals cases h
      rename_i ws hr
      rw [triples_cons, hiByte_wordOf, loByte_wordOf, (verify_iff _ _ _).1 hv, triples_of_decodeTriples rest _ ws hr]
    · cases h
  | [], _, _, h => by cases h; rfl
  | [_, _], _, _, h => by cases h
  | [_], _, _, h => by cases h

/-- Operands in the format of an entry are as many words as its `P_NARG`, and are read from their words. -/
theorem CatalogEntry.fits_words {e : CatalogEntry} {arg0 arg1 : Option Word} (h : e.fits arg0 arg1 = true) :
    (argWords arg0 arg1).length = e.nArg.val ∧ formatOf e.nArg (argWords arg0 arg1) = some (arg0, arg1) := by
  unfold CatalogEntry.fits at h
  generalize e.nArg = n at h ⊢
  split at h
  all_goals
    cases arg0 <;> cases arg1 <;> first | exact ⟨rfl, rfl⟩ | simp at h

/-- Words that are read as operands are the words of these operands, in the format of the entry. -/
theorem CatalogEntry.fits_of_formatOf {e : CatalogEntry} {ws : List Word} {arg0 arg1 : Option Word}
    (h : formatOf e.nArg ws = some (arg0, arg1)) : ws = argWords arg0 arg1 ∧ e.fits arg0 arg1 = true := by
  unfold CatalogEntry.fits
  generalize e.nArg = n at h ⊢
  unfold formatOf at h
  split at h
  all_goals
    first | unfold formatC0 at h | unfold formatC1 at h | unfold formatC2 at h
    split at h <;> cases h
    exact ⟨rfl, rfl⟩

/-! A wire command is its catalog command with its operands. -/

@[simp] theorem wire_command (c : Cmd) (arg0 arg1 : Option Word) :
    (c.command arg0 arg1).wire = some (c, argWords arg0 arg1) := by cases c <;> rfl

@[simp] theorem encode_command (cat : Catalog) (c : Cmd) (arg0 arg1 : Option Word) :
    encode cat (c.command arg0 arg1) = .frame (frameOf (cat.entry c).opcode (argWords arg0 arg1)) := by cases c <;> rfl

@[simp] theorem wellFormed_command (cat : Catalog) (c : Cmd) (arg0 arg1 : Option Word) :
    (c.command arg0 arg1).wellFormed cat = (cat.entry c).fits arg0 arg1 := by cases c <;> rfl

/-- An instruction is a wire command, or its encoding is a request triple, the same under every catalog. -/
theorem command_or_request (i : Instr) :
    (∃ c arg0 arg1, i = Cmd.command c arg0 arg1) ∨
      i.wire = none ∧ ∃ op a0 a1, ∀ cat : Catalog, encode cat i = .request op a0 a1 := by
  cases i
  case cmdIaqInit arg0 arg1 => exact .inl ⟨.iaqInit, arg0, arg1, rfl⟩
  case cmdMeasureIaq arg0 arg1 => exact .inl ⟨.measureIaq, arg0, arg1, rfl⟩
  case cmdGetIaqBaseline arg0 arg1 => exact .inl ⟨.getIaqBaseline, arg0, arg1, rfl⟩
  case cmdSetIaqBaseline arg0 arg1 => exact .inl ⟨.setIaqBaseline, arg0, arg1, rfl⟩
  case cmdSetAbsoluteHumidity arg0 arg1 => exact .inl ⟨.setAbsoluteHumidity, arg0, arg1, rfl⟩
  case cmdMeasureTest arg0 arg1 => exact .inl ⟨.measureTest, arg0, arg1, rfl⟩
  case cmdGetFeatureSet arg0 arg1 => exact .inl ⟨.getFeatureSet, arg0, arg1, rfl⟩
  case cmdMeasureRaw arg0 arg1 => exact .inl ⟨.measureRaw, arg0, arg1, rfl⟩
  case cmdGetTvocInceptiveBaseline arg0 arg1 => exact .inl ⟨.getTvocInceptiveBaseline, arg0, arg1, rfl⟩
  case cmdSetTvocBaseline arg0 arg1 => exact .inl ⟨.setTvocBaseline, arg0, arg1, rfl⟩
  case cmdGetSerialId arg0 arg1 => exact .inl ⟨.getSerialId, arg0, arg1, rfl⟩
  all_goals exact .inr ⟨rfl, _, _, _, fun _ => rfl⟩

/-- A frame of an opcode that selects `c`, in the format of its entry, decodes as `c` with its operands. -/
theorem decodeFrame_frameOf {cat : Catalog} {op : Word} {c : Cmd} {arg0 arg1 : Option Word}
    (hc : cat.ofOpcode op = some c) (hf : (cat.entry c).fits arg0 arg1 = true) :
    decodeFrame cat (frameOf op (argWords arg0 arg1)) = .ok (c.command arg0 arg1) := by
  simp only [frameOf, List.cons_append, List.nil_append, decodeFrame, wordOf_hiByte_loByte, hc, decodeTriples_triples,
    (CatalogEntry.fits_words hf).2]

/-- A frame that decodes is the frame of a command of the catalog, in the format of its entry. -/
theorem frameOf_of_decodeFrame {cat : Catalog} {bytes : List Byte} {i : Instr} (h : decodeFrame cat bytes = .ok i) :
    ∃ c arg0 arg1, i = Cmd.command c arg0 arg1 ∧ (cat.entry c).fits arg0 arg1 = true ∧
      bytes = frameOf (cat.entry c).opcode (argWords arg0 arg1) := by
  unfold decodeFrame at h
  split at h
  · rename_i hi lo rest
    split at h
    · cases h
    rename_i c hc
    split at h
    · cases h
    · cases h
    rename_i ws hws
    have hop : (cat.entry c).opcode = wordOf hi lo := by simpa using List.find?_some hc
    split at h
    · cases h
    · rename_i arg0 arg1 hf
      cases h
      obtain ⟨rfl, hl⟩ := CatalogEntry.fits_of_formatOf hf
      exact ⟨c, arg0, arg1, rfl, hl, by simp [frameOf, hop, ← triples_of_decodeTriples rest 0 _ hws]⟩
  · cases h
  · cases h

@[simp] theorem frameOf_length (op : Word) (ws : List Word) : (frameOf op ws).length = 2 + 3 * ws.length := by
  simp [frameOf]; omega

/-- Where no two entries share an opcode, the opcode of a command selects it. -/
theorem ofOpcode_entry {cat : Catalog} (h : cat.opcodesDistinct = true) (c : Cmd) :
    cat.ofOpcode (cat.entry c).opcode = some c := by
  have hn : (Cmd.all.map fun c => (cat.entry c).opcode).Nodup := of_decide_eq_true h
  have hm : ∀ c : Cmd, c ∈ Cmd.all := by intro c; cases c <;> simp [Cmd.all]
  have hd : ∀ l : List Cmd, c ∈ l → (l.map fun c => (cat.entry c).opcode).Nodup →
      l.find? (fun d => decide ((cat.entry d).opcode = (cat.entry c).opcode)) = some c := by
    intro l
    induction l with
    | nil => intro hc; cases hc
    | cons d l ih =>
      intro hc hl
      rw [List.map_cons, List.nodup_cons] at hl
      rcases List.mem_cons.1 hc with rfl | hc
      · simp
      · have hne : (cat.entry d).opcode ≠ (cat.entry c).opcode := fun he =>
          hl.1 (by rw [he]; exact List.mem_map_of_mem hc)
        simp [hne, ih hc hl.2]
  exact hd Cmd.all (hm c) hn

/-! ### Decoding a request -/

/-- R60: a code from `0x18` on is reserved. -/
theorem decodeRequest_reserved {op : BitVec 8} (a0 : BitVec 32) (a1 : BitVec 16) (h : 0x18 ≤ op.toNat) :
    decodeRequest op a0 a1 = .reserved op := by
  unfold decodeRequest
  split <;> first | omega | rfl

/-- R57: a code below `0x18` is a request. -/
theorem decodeRequest_wellFormed (cat : Catalog) (op : BitVec 8) (a0 : BitVec 32) (a1 : BitVec 16) :
    (decodeRequest op a0 a1).wellFormed cat = true := by
  have h0 : ∀ op : BitVec 8, (decodeRequest op 0 0).wellFormed Catalog.default = true := by decide +kernel
  rw [← h0 op]
  unfold decodeRequest
  split <;> rfl

end Sys2Proof
end

