-- ==== Sys2Proof/Laws/State.lean ====
section
/-! SUPPORT. What each register update of Machine/Ops.lean leaves in each field of State: one lemma for each field of each
update, so that no later proof unfolds an update. -/

namespace Sys2Proof.Machine

variable (s : State)

/-! ### setPhase -/

@[simp] theorem State.setPhase_cfg (p : Phase) : (s.setPhase p).cfg = s.cfg := rfl
@[simp] theorem State.setPhase_phase (p : Phase) : (s.setPhase p).phase = p.bits := rfl
@[simp] theorem State.setPhase_kind (p : Phase) : (s.setPhase p).kind = s.kind := rfl
@[simp] theorem State.setPhase_txn (p : Phase) : (s.setPhase p).txn = s.txn := rfl
@[simp] theorem State.setPhase_pendCmd (p : Phase) : (s.setPhase p).pendCmd = s.pendCmd := rfl
@[simp] theorem State.setPhase_tIssue (p : Phase) : (s.setPhase p).tIssue = s.tIssue := rfl
@[simp] theorem State.setPhase_tWait (p : Phase) : (s.setPhase p).tWait = s.tWait := rfl
@[simp] theorem State.setPhase_fsReg (p : Phase) : (s.setPhase p).fsReg = s.fsReg := rfl
@[simp] theorem State.setPhase_fsValid (p : Phase) : (s.setPhase p).fsValid = s.fsValid := rfl
@[simp] theorem State.setPhase_baseReg (p : Phase) : (s.setPhase p).baseReg = s.baseReg := rfl
@[simp] theorem State.setPhase_baseValid (p : Phase) : (s.setPhase p).baseValid = s.baseValid := rfl
@[simp] theorem State.setPhase_word0 (p : Phase) : (s.setPhase p).word0 = s.word0 := rfl
@[simp] theorem State.setPhase_word1 (p : Phase) : (s.setPhase p).word1 = s.word1 := rfl
@[simp] theorem State.setPhase_word2 (p : Phase) : (s.setPhase p).word2 = s.word2 := rfl
@[simp] theorem State.setPhase_wcount (p : Phase) : (s.setPhase p).wcount = s.wcount := rfl
@[simp] theorem State.setPhase_status (p : Phase) : (s.setPhase p).status = s.status := rfl
@[simp] theorem State.setPhase_arg0 (p : Phase) : (s.setPhase p).arg0 = s.arg0 := rfl
@[simp] theorem State.setPhase_arg1 (p : Phase) : (s.setPhase p).arg1 = s.arg1 := rfl
@[simp] theorem State.setPhase_narg (p : Phase) : (s.setPhase p).narg = s.narg := rfl
@[simp] theorem State.setPhase_txbuf (p : Phase) : (s.setPhase p).txbuf = s.txbuf := rfl
@[simp] theorem State.setPhase_rxbuf (p : Phase) : (s.setPhase p).rxbuf = s.rxbuf := rfl
@[simp] theorem State.setPhase_crcReg (p : Phase) : (s.setPhase p).crcReg = s.crcReg := rfl
@[simp] theorem State.setPhase_b (p : Phase) : (s.setPhase p).b = s.b := rfl
@[simp] theorem State.setPhase_env (p : Phase) : (s.setPhase p).env = s.env := rfl

/-! ### setKind -/

@[simp] theorem State.setKind_cfg (k : Kind) : (s.setKind k).cfg = s.cfg := rfl
@[simp] theorem State.setKind_phase (k : Kind) : (s.setKind k).phase = s.phase := rfl
@[simp] theorem State.setKind_kind (k : Kind) : (s.setKind k).kind = k := rfl
@[simp] theorem State.setKind_txn (k : Kind) : (s.setKind k).txn = s.txn := rfl
@[simp] theorem State.setKind_pendCmd (k : Kind) : (s.setKind k).pendCmd = s.pendCmd := rfl
@[simp] theorem State.setKind_tIssue (k : Kind) : (s.setKind k).tIssue = s.tIssue := rfl
@[simp] theorem State.setKind_tWait (k : Kind) : (s.setKind k).tWait = s.tWait := rfl
@[simp] theorem State.setKind_fsReg (k : Kind) : (s.setKind k).fsReg = s.fsReg := rfl
@[simp] theorem State.setKind_fsValid (k : Kind) : (s.setKind k).fsValid = s.fsValid := rfl
@[simp] theorem State.setKind_baseReg (k : Kind) : (s.setKind k).baseReg = s.baseReg := rfl
@[simp] theorem State.setKind_baseValid (k : Kind) : (s.setKind k).baseValid = s.baseValid := rfl
@[simp] theorem State.setKind_word0 (k : Kind) : (s.setKind k).word0 = s.word0 := rfl
@[simp] theorem State.setKind_word1 (k : Kind) : (s.setKind k).word1 = s.word1 := rfl
@[simp] theorem State.setKind_word2 (k : Kind) : (s.setKind k).word2 = s.word2 := rfl
@[simp] theorem State.setKind_wcount (k : Kind) : (s.setKind k).wcount = s.wcount := rfl
@[simp] theorem State.setKind_status (k : Kind) : (s.setKind k).status = s.status := rfl
@[simp] theorem State.setKind_arg0 (k : Kind) : (s.setKind k).arg0 = s.arg0 := rfl
@[simp] theorem State.setKind_arg1 (k : Kind) : (s.setKind k).arg1 = s.arg1 := rfl
@[simp] theorem State.setKind_narg (k : Kind) : (s.setKind k).narg = s.narg := rfl
@[simp] theorem State.setKind_txbuf (k : Kind) : (s.setKind k).txbuf = s.txbuf := rfl
@[simp] theorem State.setKind_rxbuf (k : Kind) : (s.setKind k).rxbuf = s.rxbuf := rfl
@[simp] theorem State.setKind_crcReg (k : Kind) : (s.setKind k).crcReg = s.crcReg := rfl
@[simp] theorem State.setKind_b (k : Kind) : (s.setKind k).b = s.b := rfl
@[simp] theorem State.setKind_env (k : Kind) : (s.setKind k).env = s.env := rfl

/-! ### setTxn -/

@[simp] theorem State.setTxn_cfg (t : Txn) : (s.setTxn t).cfg = s.cfg := rfl
@[simp] theorem State.setTxn_phase (t : Txn) : (s.setTxn t).phase = s.phase := rfl
@[simp] theorem State.setTxn_kind (t : Txn) : (s.setTxn t).kind = s.kind := rfl
@[simp] theorem State.setTxn_txn (t : Txn) : (s.setTxn t).txn = t := rfl
@[simp] theorem State.setTxn_pendCmd (t : Txn) : (s.setTxn t).pendCmd = s.pendCmd := rfl
@[simp] theorem State.setTxn_tIssue (t : Txn) : (s.setTxn t).tIssue = s.tIssue := rfl
@[simp] theorem State.setTxn_tWait (t : Txn) : (s.setTxn t).tWait = s.tWait := rfl
@[simp] theorem State.setTxn_fsReg (t : Txn) : (s.setTxn t).fsReg = s.fsReg := rfl
@[simp] theorem State.setTxn_fsValid (t : Txn) : (s.setTxn t).fsValid = s.fsValid := rfl
@[simp] theorem State.setTxn_baseReg (t : Txn) : (s.setTxn t).baseReg = s.baseReg := rfl
@[simp] theorem State.setTxn_baseValid (t : Txn) : (s.setTxn t).baseValid = s.baseValid := rfl
@[simp] theorem State.setTxn_word0 (t : Txn) : (s.setTxn t).word0 = s.word0 := rfl
@[simp] theorem State.setTxn_word1 (t : Txn) : (s.setTxn t).word1 = s.word1 := rfl
@[simp] theorem State.setTxn_word2 (t : Txn) : (s.setTxn t).word2 = s.word2 := rfl
@[simp] theorem State.setTxn_wcount (t : Txn) : (s.setTxn t).wcount = s.wcount := rfl
@[simp] theorem State.setTxn_status (t : Txn) : (s.setTxn t).status = s.status := rfl
@[simp] theorem State.setTxn_arg0 (t : Txn) : (s.setTxn t).arg0 = s.arg0 := rfl
@[simp] theorem State.setTxn_arg1 (t : Txn) : (s.setTxn t).arg1 = s.arg1 := rfl
@[simp] theorem State.setTxn_narg (t : Txn) : (s.setTxn t).narg = s.narg := rfl
@[simp] theorem State.setTxn_txbuf (t : Txn) : (s.setTxn t).txbuf = s.txbuf := rfl
@[simp] theorem State.setTxn_rxbuf (t : Txn) : (s.setTxn t).rxbuf = s.rxbuf := rfl
@[simp] theorem State.setTxn_crcReg (t : Txn) : (s.setTxn t).crcReg = s.crcReg := rfl
@[simp] theorem State.setTxn_b (t : Txn) : (s.setTxn t).b = s.b := rfl
@[simp] theorem State.setTxn_env (t : Txn) : (s.setTxn t).env = s.env := rfl

/-! ### setIssue -/

@[simp] theorem State.setIssue_cfg (c : Cmd) (time : BitVec 64) (wait : BitVec 32) : (s.setIssue c time wait).cfg = s.cfg := rfl
@[simp] theorem State.setIssue_phase (c : Cmd) (time : BitVec 64) (wait : BitVec 32) : (s.setIssue c time wait).phase = s.phase := rfl
@[simp] theorem State.setIssue_kind (c : Cmd) (time : BitVec 64) (wait : BitVec 32) : (s.setIssue c time wait).kind = s.kind := rfl
@[simp] theorem State.setIssue_txn (c : Cmd) (time : BitVec 64) (wait : BitVec 32) : (s.setIssue c time wait).txn = s.txn := rfl
@[simp] theorem State.setIssue_pendCmd (c : Cmd) (time : BitVec 64) (wait : BitVec 32) : (s.setIssue c time wait).pendCmd = c := rfl
@[simp] theorem State.setIssue_tIssue (c : Cmd) (time : BitVec 64) (wait : BitVec 32) : (s.setIssue c time wait).tIssue = time := rfl
@[simp] theorem State.setIssue_tWait (c : Cmd) (time : BitVec 64) (wait : BitVec 32) : (s.setIssue c time wait).tWait = wait := rfl
@[simp] theorem State.setIssue_fsReg (c : Cmd) (time : BitVec 64) (wait : BitVec 32) : (s.setIssue c time wait).fsReg = s.fsReg := rfl
@[simp] theorem State.setIssue_fsValid (c : Cmd) (time : BitVec 64) (wait : BitVec 32) : (s.setIssue c time wait).fsValid = s.fsValid := rfl
@[simp] theorem State.setIssue_baseReg (c : Cmd) (time : BitVec 64) (wait : BitVec 32) : (s.setIssue c time wait).baseReg = s.baseReg := rfl
@[simp] theorem State.setIssue_baseValid (c : Cmd) (time : BitVec 64) (wait : BitVec 32) : (s.setIssue c time wait).baseValid = s.baseValid := rfl
@[simp] theorem State.setIssue_word0 (c : Cmd) (time : BitVec 64) (wait : BitVec 32) : (s.setIssue c time wait).word0 = s.word0 := rfl
@[simp] theorem State.setIssue_word1 (c : Cmd) (time : BitVec 64) (wait : BitVec 32) : (s.setIssue c time wait).word1 = s.word1 := rfl
@[simp] theorem State.setIssue_word2 (c : Cmd) (time : BitVec 64) (wait : BitVec 32) : (s.setIssue c time wait).word2 = s.word2 := rfl
@[simp] theorem State.setIssue_wcount (c : Cmd) (time : BitVec 64) (wait : BitVec 32) : (s.setIssue c time wait).wcount = s.wcount := rfl
@[simp] theorem State.setIssue_status (c : Cmd) (time : BitVec 64) (wait : BitVec 32) : (s.setIssue c time wait).status = s.status := rfl
@[simp] theorem State.setIssue_arg0 (c : Cmd) (time : BitVec 64) (wait : BitVec 32) : (s.setIssue c time wait).arg0 = s.arg0 := rfl
@[simp] theorem State.setIssue_arg1 (c : Cmd) (time : BitVec 64) (wait : BitVec 32) : (s.setIssue c time wait).arg1 = s.arg1 := rfl
@[simp] theorem State.setIssue_narg (c : Cmd) (time : BitVec 64) (wait : BitVec 32) : (s.setIssue c time wait).narg = s.narg := rfl
@[simp] theorem State.setIssue_txbuf (c : Cmd) (time : BitVec 64) (wait : BitVec 32) : (s.setIssue c time wait).txbuf = s.txbuf := rfl
@[simp] theorem State.setIssue_rxbuf (c : Cmd) (time : BitVec 64) (wait : BitVec 32) : (s.setIssue c time wait).rxbuf = s.rxbuf := rfl
@[simp] theorem State.setIssue_crcReg (c : Cmd) (time : BitVec 64) (wait : BitVec 32) : (s.setIssue c time wait).crcReg = s.crcReg := rfl
@[simp] theorem State.setIssue_b (c : Cmd) (time : BitVec 64) (wait : BitVec 32) : (s.setIssue c time wait).b = s.b := rfl
@[simp] theorem State.setIssue_env (c : Cmd) (time : BitVec 64) (wait : BitVec 32) : (s.setIssue c time wait).env = s.env := rfl

/-! ### setFeatureSet -/

@[simp] theorem State.setFeatureSet_cfg (w : Word) : (s.setFeatureSet w).cfg = s.cfg := rfl
@[simp] theorem State.setFeatureSet_phase (w : Word) : (s.setFeatureSet w).phase = s.phase := rfl
@[simp] theorem State.setFeatureSet_kind (w : Word) : (s.setFeatureSet w).kind = s.kind := rfl
@[simp] theorem State.setFeatureSet_txn (w : Word) : (s.setFeatureSet w).txn = s.txn := rfl
@[simp] theorem State.setFeatureSet_pendCmd (w : Word) : (s.setFeatureSet w).pendCmd = s.pendCmd := rfl
@[simp] theorem State.setFeatureSet_tIssue (w : Word) : (s.setFeatureSet w).tIssue = s.tIssue := rfl
@[simp] theorem State.setFeatureSet_tWait (w : Word) : (s.setFeatureSet w).tWait = s.tWait := rfl
@[simp] theorem State.setFeatureSet_fsReg (w : Word) : (s.setFeatureSet w).fsReg = w := rfl
@[simp] theorem State.setFeatureSet_fsValid (w : Word) : (s.setFeatureSet w).fsValid = true := rfl
@[simp] theorem State.setFeatureSet_baseReg (w : Word) : (s.setFeatureSet w).baseReg = s.baseReg := rfl
@[simp] theorem State.setFeatureSet_baseValid (w : Word) : (s.setFeatureSet w).baseValid = s.baseValid := rfl
@[simp] theorem State.setFeatureSet_word0 (w : Word) : (s.setFeatureSet w).word0 = s.word0 := rfl
@[simp] theorem State.setFeatureSet_word1 (w : Word) : (s.setFeatureSet w).word1 = s.word1 := rfl
@[simp] theorem State.setFeatureSet_word2 (w : Word) : (s.setFeatureSet w).word2 = s.word2 := rfl
@[simp] theorem State.setFeatureSet_wcount (w : Word) : (s.setFeatureSet w).wcount = s.wcount := rfl
@[simp] theorem State.setFeatureSet_status (w : Word) : (s.setFeatureSet w).status = s.status := rfl
@[simp] theorem State.setFeatureSet_arg0 (w : Word) : (s.setFeatureSet w).arg0 = s.arg0 := rfl
@[simp] theorem State.setFeatureSet_arg1 (w : Word) : (s.setFeatureSet w).arg1 = s.arg1 := rfl
@[simp] theorem State.setFeatureSet_narg (w : Word) : (s.setFeatureSet w).narg = s.narg := rfl
@[simp] theorem State.setFeatureSet_txbuf (w : Word) : (s.setFeatureSet w).txbuf = s.txbuf := rfl
@[simp] theorem State.setFeatureSet_rxbuf (w : Word) : (s.setFeatureSet w).rxbuf = s.rxbuf := rfl
@[simp] theorem State.setFeatureSet_crcReg (w : Word) : (s.setFeatureSet w).crcReg = s.crcReg := rfl
@[simp] theorem State.setFeatureSet_b (w : Word) : (s.setFeatureSet w).b = s.b := rfl
@[simp] theorem State.setFeatureSet_env (w : Word) : (s.setFeatureSet w).env = s.env := rfl

/-! ### setBaseline -/

@[simp] theorem State.setBaseline_cfg (v : BitVec 32) : (s.setBaseline v).cfg = s.cfg := rfl
@[simp] theorem State.setBaseline_phase (v : BitVec 32) : (s.setBaseline v).phase = s.phase := rfl
@[simp] theorem State.setBaseline_kind (v : BitVec 32) : (s.setBaseline v).kind = s.kind := rfl
@[simp] theorem State.setBaseline_txn (v : BitVec 32) : (s.setBaseline v).txn = s.txn := rfl
@[simp] theorem State.setBaseline_pendCmd (v : BitVec 32) : (s.setBaseline v).pendCmd = s.pendCmd := rfl
@[simp] theorem State.setBaseline_tIssue (v : BitVec 32) : (s.setBaseline v).tIssue = s.tIssue := rfl
@[simp] theorem State.setBaseline_tWait (v : BitVec 32) : (s.setBaseline v).tWait = s.tWait := rfl
@[simp] theorem State.setBaseline_fsReg (v : BitVec 32) : (s.setBaseline v).fsReg = s.fsReg := rfl
@[simp] theorem State.setBaseline_fsValid (v : BitVec 32) : (s.setBaseline v).fsValid = s.fsValid := rfl
@[simp] theorem State.setBaseline_baseReg (v : BitVec 32) : (s.setBaseline v).baseReg = v := rfl
@[simp] theorem State.setBaseline_baseValid (v : BitVec 32) : (s.setBaseline v).baseValid = true := rfl
@[simp] theorem State.setBaseline_word0 (v : BitVec 32) : (s.setBaseline v).word0 = s.word0 := rfl
@[simp] theorem State.setBaseline_word1 (v : BitVec 32) : (s.setBaseline v).word1 = s.word1 := rfl
@[simp] theorem State.setBaseline_word2 (v : BitVec 32) : (s.setBaseline v).word2 = s.word2 := rfl
@[simp] theorem State.setBaseline_wcount (v : BitVec 32) : (s.setBaseline v).wcount = s.wcount := rfl
@[simp] theorem State.setBaseline_status (v : BitVec 32) : (s.setBaseline v).status = s.status := rfl
@[simp] theorem State.setBaseline_arg0 (v : BitVec 32) : (s.setBaseline v).arg0 = s.arg0 := rfl
@[simp] theorem State.setBaseline_arg1 (v : BitVec 32) : (s.setBaseline v).arg1 = s.arg1 := rfl
@[simp] theorem State.setBaseline_narg (v : BitVec 32) : (s.setBaseline v).narg = s.narg := rfl
@[simp] theorem State.setBaseline_txbuf (v : BitVec 32) : (s.setBaseline v).txbuf = s.txbuf := rfl
@[simp] theorem State.setBaseline_rxbuf (v : BitVec 32) : (s.setBaseline v).rxbuf = s.rxbuf := rfl
@[simp] theorem State.setBaseline_crcReg (v : BitVec 32) : (s.setBaseline v).crcReg = s.crcReg := rfl
@[simp] theorem State.setBaseline_b (v : BitVec 32) : (s.setBaseline v).b = s.b := rfl
@[simp] theorem State.setBaseline_env (v : BitVec 32) : (s.setBaseline v).env = s.env := rfl

/-! ### setWords -/

@[simp] theorem State.setWords_cfg (w0 : Word) (w1 : Word) (w2 : Word) : (s.setWords w0 w1 w2).cfg = s.cfg := rfl
@[simp] theorem State.setWords_phase (w0 : Word) (w1 : Word) (w2 : Word) : (s.setWords w0 w1 w2).phase = s.phase := rfl
@[simp] theorem State.setWords_kind (w0 : Word) (w1 : Word) (w2 : Word) : (s.setWords w0 w1 w2).kind = s.kind := rfl
@[simp] theorem State.setWords_txn (w0 : Word) (w1 : Word) (w2 : Word) : (s.setWords w0 w1 w2).txn = s.txn := rfl
@[simp] theorem State.setWords_pendCmd (w0 : Word) (w1 : Word) (w2 : Word) : (s.setWords w0 w1 w2).pendCmd = s.pendCmd := rfl
@[simp] theorem State.setWords_tIssue (w0 : Word) (w1 : Word) (w2 : Word) : (s.setWords w0 w1 w2).tIssue = s.tIssue := rfl
@[simp] theorem State.setWords_tWait (w0 : Word) (w1 : Word) (w2 : Word) : (s.setWords w0 w1 w2).tWait = s.tWait := rfl
@[simp] theorem State.setWords_fsReg (w0 : Word) (w1 : Word) (w2 : Word) : (s.setWords w0 w1 w2).fsReg = s.fsReg := rfl
@[simp] theorem State.setWords_fsValid (w0 : Word) (w1 : Word) (w2 : Word) : (s.setWords w0 w1 w2).fsValid = s.fsValid := rfl
@[simp] theorem State.setWords_baseReg (w0 : Word) (w1 : Word) (w2 : Word) : (s.setWords w0 w1 w2).baseReg = s.baseReg := rfl
@[simp] theorem State.setWords_baseValid (w0 : Word) (w1 : Word) (w2 : Word) : (s.setWords w0 w1 w2).baseValid = s.baseValid := rfl
@[simp] theorem State.setWords_word0 (w0 : Word) (w1 : Word) (w2 : Word) : (s.setWords w0 w1 w2).word0 = w0 := rfl
@[simp] theorem State.setWords_word1 (w0 : Word) (w1 : Word) (w2 : Word) : (s.setWords w0 w1 w2).word1 = w1 := rfl
@[simp] theorem State.setWords_word2 (w0 : Word) (w1 : Word) (w2 : Word) : (s.setWords w0 w1 w2).word2 = w2 := rfl
@[simp] theorem State.setWords_wcount (w0 : Word) (w1 : Word) (w2 : Word) : (s.setWords w0 w1 w2).wcount = s.wcount := rfl
@[simp] theorem State.setWords_status (w0 : Word) (w1 : Word) (w2 : Word) : (s.setWords w0 w1 w2).status = s.status := rfl
@[simp] theorem State.setWords_arg0 (w0 : Word) (w1 : Word) (w2 : Word) : (s.setWords w0 w1 w2).arg0 = s.arg0 := rfl
@[simp] theorem State.setWords_arg1 (w0 : Word) (w1 : Word) (w2 : Word) : (s.setWords w0 w1 w2).arg1 = s.arg1 := rfl
@[simp] theorem State.setWords_narg (w0 : Word) (w1 : Word) (w2 : Word) : (s.setWords w0 w1 w2).narg = s.narg := rfl
@[simp] theorem State.setWords_txbuf (w0 : Word) (w1 : Word) (w2 : Word) : (s.setWords w0 w1 w2).txbuf = s.txbuf := rfl
@[simp] theorem State.setWords_rxbuf (w0 : Word) (w1 : Word) (w2 : Word) : (s.setWords w0 w1 w2).rxbuf = s.rxbuf := rfl
@[simp] theorem State.setWords_crcReg (w0 : Word) (w1 : Word) (w2 : Word) : (s.setWords w0 w1 w2).crcReg = s.crcReg := rfl
@[simp] theorem State.setWords_b (w0 : Word) (w1 : Word) (w2 : Word) : (s.setWords w0 w1 w2).b = s.b := rfl
@[simp] theorem State.setWords_env (w0 : Word) (w1 : Word) (w2 : Word) : (s.setWords w0 w1 w2).env = s.env := rfl

/-! ### setWcount -/

@[simp] theorem State.setWcount_cfg (n : BitVec 2) : (s.setWcount n).cfg = s.cfg := rfl
@[simp] theorem State.setWcount_phase (n : BitVec 2) : (s.setWcount n).phase = s.phase := rfl
@[simp] theorem State.setWcount_kind (n : BitVec 2) : (s.setWcount n).kind = s.kind := rfl
@[simp] theorem State.setWcount_txn (n : BitVec 2) : (s.setWcount n).txn = s.txn := rfl
@[simp] theorem State.setWcount_pendCmd (n : BitVec 2) : (s.setWcount n).pendCmd = s.pendCmd := rfl
@[simp] theorem State.setWcount_tIssue (n : BitVec 2) : (s.setWcount n).tIssue = s.tIssue := rfl
@[simp] theorem State.setWcount_tWait (n : BitVec 2) : (s.setWcount n).tWait = s.tWait := rfl
@[simp] theorem State.setWcount_fsReg (n : BitVec 2) : (s.setWcount n).fsReg = s.fsReg := rfl
@[simp] theorem State.setWcount_fsValid (n : BitVec 2) : (s.setWcount n).fsValid = s.fsValid := rfl
@[simp] theorem State.setWcount_baseReg (n : BitVec 2) : (s.setWcount n).baseReg = s.baseReg := rfl
@[simp] theorem State.setWcount_baseValid (n : BitVec 2) : (s.setWcount n).baseValid = s.baseValid := rfl
@[simp] theorem State.setWcount_word0 (n : BitVec 2) : (s.setWcount n).word0 = s.word0 := rfl
@[simp] theorem State.setWcount_word1 (n : BitVec 2) : (s.setWcount n).word1 = s.word1 := rfl
@[simp] theorem State.setWcount_word2 (n : BitVec 2) : (s.setWcount n).word2 = s.word2 := rfl
@[simp] theorem State.setWcount_wcount (n : BitVec 2) : (s.setWcount n).wcount = n := rfl
@[simp] theorem State.setWcount_status (n : BitVec 2) : (s.setWcount n).status = s.status := rfl
@[simp] theorem State.setWcount_arg0 (n : BitVec 2) : (s.setWcount n).arg0 = s.arg0 := rfl
@[simp] theorem State.setWcount_arg1 (n : BitVec 2) : (s.setWcount n).arg1 = s.arg1 := rfl
@[simp] theorem State.setWcount_narg (n : BitVec 2) : (s.setWcount n).narg = s.narg := rfl
@[simp] theorem State.setWcount_txbuf (n : BitVec 2) : (s.setWcount n).txbuf = s.txbuf := rfl
@[simp] theorem State.setWcount_rxbuf (n : BitVec 2) : (s.setWcount n).rxbuf = s.rxbuf := rfl
@[simp] theorem State.setWcount_crcReg (n : BitVec 2) : (s.setWcount n).crcReg = s.crcReg := rfl
@[simp] theorem State.setWcount_b (n : BitVec 2) : (s.setWcount n).b = s.b := rfl
@[simp] theorem State.setWcount_env (n : BitVec 2) : (s.setWcount n).env = s.env := rfl

/-! ### setStatus -/

@[simp] theorem State.setStatus_cfg (st : Word) : (s.setStatus st).cfg = s.cfg := rfl
@[simp] theorem State.setStatus_phase (st : Word) : (s.setStatus st).phase = s.phase := rfl
@[simp] theorem State.setStatus_kind (st : Word) : (s.setStatus st).kind = s.kind := rfl
@[simp] theorem State.setStatus_txn (st : Word) : (s.setStatus st).txn = s.txn := rfl
@[simp] theorem State.setStatus_pendCmd (st : Word) : (s.setStatus st).pendCmd = s.pendCmd := rfl
@[simp] theorem State.setStatus_tIssue (st : Word) : (s.setStatus st).tIssue = s.tIssue := rfl
@[simp] theorem State.setStatus_tWait (st : Word) : (s.setStatus st).tWait = s.tWait := rfl
@[simp] theorem State.setStatus_fsReg (st : Word) : (s.setStatus st).fsReg = s.fsReg := rfl
@[simp] theorem State.setStatus_fsValid (st : Word) : (s.setStatus st).fsValid = s.fsValid := rfl
@[simp] theorem State.setStatus_baseReg (st : Word) : (s.setStatus st).baseReg = s.baseReg := rfl
@[simp] theorem State.setStatus_baseValid (st : Word) : (s.setStatus st).baseValid = s.baseValid := rfl
@[simp] theorem State.setStatus_word0 (st : Word) : (s.setStatus st).word0 = s.word0 := rfl
@[simp] theorem State.setStatus_word1 (st : Word) : (s.setStatus st).word1 = s.word1 := rfl
@[simp] theorem State.setStatus_word2 (st : Word) : (s.setStatus st).word2 = s.word2 := rfl
@[simp] theorem State.setStatus_wcount (st : Word) : (s.setStatus st).wcount = s.wcount := rfl
@[simp] theorem State.setStatus_status (st : Word) : (s.setStatus st).status = st := rfl
@[simp] theorem State.setStatus_arg0 (st : Word) : (s.setStatus st).arg0 = s.arg0 := rfl
@[simp] theorem State.setStatus_arg1 (st : Word) : (s.setStatus st).arg1 = s.arg1 := rfl
@[simp] theorem State.setStatus_narg (st : Word) : (s.setStatus st).narg = s.narg := rfl
@[simp] theorem State.setStatus_txbuf (st : Word) : (s.setStatus st).txbuf = s.txbuf := rfl
@[simp] theorem State.setStatus_rxbuf (st : Word) : (s.setStatus st).rxbuf = s.rxbuf := rfl
@[simp] theorem State.setStatus_crcReg (st : Word) : (s.setStatus st).crcReg = s.crcReg := rfl
@[simp] theorem State.setStatus_b (st : Word) : (s.setStatus st).b = s.b := rfl
@[simp] theorem State.setStatus_env (st : Word) : (s.setStatus st).env = s.env := rfl

/-! ### setArgs -/

@[simp] theorem State.setArgs_cfg (w0 : Word) (w1 : Word) (n : BitVec 2) : (s.setArgs w0 w1 n).cfg = s.cfg := rfl
@[simp] theorem State.setArgs_phase (w0 : Word) (w1 : Word) (n : BitVec 2) : (s.setArgs w0 w1 n).phase = s.phase := rfl
@[simp] theorem State.setArgs_kind (w0 : Word) (w1 : Word) (n : BitVec 2) : (s.setArgs w0 w1 n).kind = s.kind := rfl
@[simp] theorem State.setArgs_txn (w0 : Word) (w1 : Word) (n : BitVec 2) : (s.setArgs w0 w1 n).txn = s.txn := rfl
@[simp] theorem State.setArgs_pendCmd (w0 : Word) (w1 : Word) (n : BitVec 2) : (s.setArgs w0 w1 n).pendCmd = s.pendCmd := rfl
@[simp] theorem State.setArgs_tIssue (w0 : Word) (w1 : Word) (n : BitVec 2) : (s.setArgs w0 w1 n).tIssue = s.tIssue := rfl
@[simp] theorem State.setArgs_tWait (w0 : Word) (w1 : Word) (n : BitVec 2) : (s.setArgs w0 w1 n).tWait = s.tWait := rfl
@[simp] theorem State.setArgs_fsReg (w0 : Word) (w1 : Word) (n : BitVec 2) : (s.setArgs w0 w1 n).fsReg = s.fsReg := rfl
@[simp] theorem State.setArgs_fsValid (w0 : Word) (w1 : Word) (n : BitVec 2) : (s.setArgs w0 w1 n).fsValid = s.fsValid := rfl
@[simp] theorem State.setArgs_baseReg (w0 : Word) (w1 : Word) (n : BitVec 2) : (s.setArgs w0 w1 n).baseReg = s.baseReg := rfl
@[simp] theorem State.setArgs_baseValid (w0 : Word) (w1 : Word) (n : BitVec 2) : (s.setArgs w0 w1 n).baseValid = s.baseValid := rfl
@[simp] theorem State.setArgs_word0 (w0 : Word) (w1 : Word) (n : BitVec 2) : (s.setArgs w0 w1 n).word0 = s.word0 := rfl
@[simp] theorem State.setArgs_word1 (w0 : Word) (w1 : Word) (n : BitVec 2) : (s.setArgs w0 w1 n).word1 = s.word1 := rfl
@[simp] theorem State.setArgs_word2 (w0 : Word) (w1 : Word) (n : BitVec 2) : (s.setArgs w0 w1 n).word2 = s.word2 := rfl
@[simp] theorem State.setArgs_wcount (w0 : Word) (w1 : Word) (n : BitVec 2) : (s.setArgs w0 w1 n).wcount = s.wcount := rfl
@[simp] theorem State.setArgs_status (w0 : Word) (w1 : Word) (n : BitVec 2) : (s.setArgs w0 w1 n).status = s.status := rfl
@[simp] theorem State.setArgs_arg0 (w0 : Word) (w1 : Word) (n : BitVec 2) : (s.setArgs w0 w1 n).arg0 = w0 := rfl
@[simp] theorem State.setArgs_arg1 (w0 : Word) (w1 : Word) (n : BitVec 2) : (s.setArgs w0 w1 n).arg1 = w1 := rfl
@[simp] theorem State.setArgs_narg (w0 : Word) (w1 : Word) (n : BitVec 2) : (s.setArgs w0 w1 n).narg = n := rfl
@[simp] theorem State.setArgs_txbuf (w0 : Word) (w1 : Word) (n : BitVec 2) : (s.setArgs w0 w1 n).txbuf = s.txbuf := rfl
@[simp] theorem State.setArgs_rxbuf (w0 : Word) (w1 : Word) (n : BitVec 2) : (s.setArgs w0 w1 n).rxbuf = s.rxbuf := rfl
@[simp] theorem State.setArgs_crcReg (w0 : Word) (w1 : Word) (n : BitVec 2) : (s.setArgs w0 w1 n).crcReg = s.crcReg := rfl
@[simp] theorem State.setArgs_b (w0 : Word) (w1 : Word) (n : BitVec 2) : (s.setArgs w0 w1 n).b = s.b := rfl
@[simp] theorem State.setArgs_env (w0 : Word) (w1 : Word) (n : BitVec 2) : (s.setArgs w0 w1 n).env = s.env := rfl

/-! ### setTxbuf -/

@[simp] theorem State.setTxbuf_cfg (bs : List Byte) : (s.setTxbuf bs).cfg = s.cfg := rfl
@[simp] theorem State.setTxbuf_phase (bs : List Byte) : (s.setTxbuf bs).phase = s.phase := rfl
@[simp] theorem State.setTxbuf_kind (bs : List Byte) : (s.setTxbuf bs).kind = s.kind := rfl
@[simp] theorem State.setTxbuf_txn (bs : List Byte) : (s.setTxbuf bs).txn = s.txn := rfl
@[simp] theorem State.setTxbuf_pendCmd (bs : List Byte) : (s.setTxbuf bs).pendCmd = s.pendCmd := rfl
@[simp] theorem State.setTxbuf_tIssue (bs : List Byte) : (s.setTxbuf bs).tIssue = s.tIssue := rfl
@[simp] theorem State.setTxbuf_tWait (bs : List Byte) : (s.setTxbuf bs).tWait = s.tWait := rfl
@[simp] theorem State.setTxbuf_fsReg (bs : List Byte) : (s.setTxbuf bs).fsReg = s.fsReg := rfl
@[simp] theorem State.setTxbuf_fsValid (bs : List Byte) : (s.setTxbuf bs).fsValid = s.fsValid := rfl
@[simp] theorem State.setTxbuf_baseReg (bs : List Byte) : (s.setTxbuf bs).baseReg = s.baseReg := rfl
@[simp] theorem State.setTxbuf_baseValid (bs : List Byte) : (s.setTxbuf bs).baseValid = s.baseValid := rfl
@[simp] theorem State.setTxbuf_word0 (bs : List Byte) : (s.setTxbuf bs).word0 = s.word0 := rfl
@[simp] theorem State.setTxbuf_word1 (bs : List Byte) : (s.setTxbuf bs).word1 = s.word1 := rfl
@[simp] theorem State.setTxbuf_word2 (bs : List Byte) : (s.setTxbuf bs).word2 = s.word2 := rfl
@[simp] theorem State.setTxbuf_wcount (bs : List Byte) : (s.setTxbuf bs).wcount = s.wcount := rfl
@[simp] theorem State.setTxbuf_status (bs : List Byte) : (s.setTxbuf bs).status = s.status := rfl
@[simp] theorem State.setTxbuf_arg0 (bs : List Byte) : (s.setTxbuf bs).arg0 = s.arg0 := rfl
@[simp] theorem State.setTxbuf_arg1 (bs : List Byte) : (s.setTxbuf bs).arg1 = s.arg1 := rfl
@[simp] theorem State.setTxbuf_narg (bs : List Byte) : (s.setTxbuf bs).narg = s.narg := rfl
@[simp] theorem State.setTxbuf_txbuf (bs : List Byte) : (s.setTxbuf bs).txbuf = bs := rfl
@[simp] theorem State.setTxbuf_rxbuf (bs : List Byte) : (s.setTxbuf bs).rxbuf = s.rxbuf := rfl
@[simp] theorem State.setTxbuf_crcReg (bs : List Byte) : (s.setTxbuf bs).crcReg = s.crcReg := rfl
@[simp] theorem State.setTxbuf_b (bs : List Byte) : (s.setTxbuf bs).b = s.b := rfl
@[simp] theorem State.setTxbuf_env (bs : List Byte) : (s.setTxbuf bs).env = s.env := rfl

/-! ### setRxbuf -/

@[simp] theorem State.setRxbuf_cfg (bs : List Byte) : (s.setRxbuf bs).cfg = s.cfg := rfl
@[simp] theorem State.setRxbuf_phase (bs : List Byte) : (s.setRxbuf bs).phase = s.phase := rfl
@[simp] theorem State.setRxbuf_kind (bs : List Byte) : (s.setRxbuf bs).kind = s.kind := rfl
@[simp] theorem State.setRxbuf_txn (bs : List Byte) : (s.setRxbuf bs).txn = s.txn := rfl
@[simp] theorem State.setRxbuf_pendCmd (bs : List Byte) : (s.setRxbuf bs).pendCmd = s.pendCmd := rfl
@[simp] theorem State.setRxbuf_tIssue (bs : List Byte) : (s.setRxbuf bs).tIssue = s.tIssue := rfl
@[simp] theorem State.setRxbuf_tWait (bs : List Byte) : (s.setRxbuf bs).tWait = s.tWait := rfl
@[simp] theorem State.setRxbuf_fsReg (bs : List Byte) : (s.setRxbuf bs).fsReg = s.fsReg := rfl
@[simp] theorem State.setRxbuf_fsValid (bs : List Byte) : (s.setRxbuf bs).fsValid = s.fsValid := rfl
@[simp] theorem State.setRxbuf_baseReg (bs : List Byte) : (s.setRxbuf bs).baseReg = s.baseReg := rfl
@[simp] theorem State.setRxbuf_baseValid (bs : List Byte) : (s.setRxbuf bs).baseValid = s.baseValid := rfl
@[simp] theorem State.setRxbuf_word0 (bs : List Byte) : (s.setRxbuf bs).word0 = s.word0 := rfl
@[simp] theorem State.setRxbuf_word1 (bs : List Byte) : (s.setRxbuf bs).word1 = s.word1 := rfl
@[simp] theorem State.setRxbuf_word2 (bs : List Byte) : (s.setRxbuf bs).word2 = s.word2 := rfl
@[simp] theorem State.setRxbuf_wcount (bs : List Byte) : (s.setRxbuf bs).wcount = s.wcount := rfl
@[simp] theorem State.setRxbuf_status (bs : List Byte) : (s.setRxbuf bs).status = s.status := rfl
@[simp] theorem State.setRxbuf_arg0 (bs : List Byte) : (s.setRxbuf bs).arg0 = s.arg0 := rfl
@[simp] theorem State.setRxbuf_arg1 (bs : List Byte) : (s.setRxbuf bs).arg1 = s.arg1 := rfl
@[simp] theorem State.setRxbuf_narg (bs : List Byte) : (s.setRxbuf bs).narg = s.narg := rfl
@[simp] theorem State.setRxbuf_txbuf (bs : List Byte) : (s.setRxbuf bs).txbuf = s.txbuf := rfl
@[simp] theorem State.setRxbuf_rxbuf (bs : List Byte) : (s.setRxbuf bs).rxbuf = bs := rfl
@[simp] theorem State.setRxbuf_crcReg (bs : List Byte) : (s.setRxbuf bs).crcReg = s.crcReg := rfl
@[simp] theorem State.setRxbuf_b (bs : List Byte) : (s.setRxbuf bs).b = s.b := rfl
@[simp] theorem State.setRxbuf_env (bs : List Byte) : (s.setRxbuf bs).env = s.env := rfl

/-! ### setCrc -/

@[simp] theorem State.setCrc_cfg (r : Byte) : (s.setCrc r).cfg = s.cfg := rfl
@[simp] theorem State.setCrc_phase (r : Byte) : (s.setCrc r).phase = s.phase := rfl
@[simp] theorem State.setCrc_kind (r : Byte) : (s.setCrc r).kind = s.kind := rfl
@[simp] theorem State.setCrc_txn (r : Byte) : (s.setCrc r).txn = s.txn := rfl
@[simp] theorem State.setCrc_pendCmd (r : Byte) : (s.setCrc r).pendCmd = s.pendCmd := rfl
@[simp] theorem State.setCrc_tIssue (r : Byte) : (s.setCrc r).tIssue = s.tIssue := rfl
@[simp] theorem State.setCrc_tWait (r : Byte) : (s.setCrc r).tWait = s.tWait := rfl
@[simp] theorem State.setCrc_fsReg (r : Byte) : (s.setCrc r).fsReg = s.fsReg := rfl
@[simp] theorem State.setCrc_fsValid (r : Byte) : (s.setCrc r).fsValid = s.fsValid := rfl
@[simp] theorem State.setCrc_baseReg (r : Byte) : (s.setCrc r).baseReg = s.baseReg := rfl
@[simp] theorem State.setCrc_baseValid (r : Byte) : (s.setCrc r).baseValid = s.baseValid := rfl
@[simp] theorem State.setCrc_word0 (r : Byte) : (s.setCrc r).word0 = s.word0 := rfl
@[simp] theorem State.setCrc_word1 (r : Byte) : (s.setCrc r).word1 = s.word1 := rfl
@[simp] theorem State.setCrc_word2 (r : Byte) : (s.setCrc r).word2 = s.word2 := rfl
@[simp] theorem State.setCrc_wcount (r : Byte) : (s.setCrc r).wcount = s.wcount := rfl
@[simp] theorem State.setCrc_status (r : Byte) : (s.setCrc r).status = s.status := rfl
@[simp] theorem State.setCrc_arg0 (r : Byte) : (s.setCrc r).arg0 = s.arg0 := rfl
@[simp] theorem State.setCrc_arg1 (r : Byte) : (s.setCrc r).arg1 = s.arg1 := rfl
@[simp] theorem State.setCrc_narg (r : Byte) : (s.setCrc r).narg = s.narg := rfl
@[simp] theorem State.setCrc_txbuf (r : Byte) : (s.setCrc r).txbuf = s.txbuf := rfl
@[simp] theorem State.setCrc_rxbuf (r : Byte) : (s.setCrc r).rxbuf = s.rxbuf := rfl
@[simp] theorem State.setCrc_crcReg (r : Byte) : (s.setCrc r).crcReg = r := rfl
@[simp] theorem State.setCrc_b (r : Byte) : (s.setCrc r).b = s.b := rfl
@[simp] theorem State.setCrc_env (r : Byte) : (s.setCrc r).env = s.env := rfl

/-! ### setB -/

@[simp] theorem State.setB_cfg (b : Bool) : (s.setB b).cfg = s.cfg := rfl
@[simp] theorem State.setB_phase (b : Bool) : (s.setB b).phase = s.phase := rfl
@[simp] theorem State.setB_kind (b : Bool) : (s.setB b).kind = s.kind := rfl
@[simp] theorem State.setB_txn (b : Bool) : (s.setB b).txn = s.txn := rfl
@[simp] theorem State.setB_pendCmd (b : Bool) : (s.setB b).pendCmd = s.pendCmd := rfl
@[simp] theorem State.setB_tIssue (b : Bool) : (s.setB b).tIssue = s.tIssue := rfl
@[simp] theorem State.setB_tWait (b : Bool) : (s.setB b).tWait = s.tWait := rfl
@[simp] theorem State.setB_fsReg (b : Bool) : (s.setB b).fsReg = s.fsReg := rfl
@[simp] theorem State.setB_fsValid (b : Bool) : (s.setB b).fsValid = s.fsValid := rfl
@[simp] theorem State.setB_baseReg (b : Bool) : (s.setB b).baseReg = s.baseReg := rfl
@[simp] theorem State.setB_baseValid (b : Bool) : (s.setB b).baseValid = s.baseValid := rfl
@[simp] theorem State.setB_word0 (b : Bool) : (s.setB b).word0 = s.word0 := rfl
@[simp] theorem State.setB_word1 (b : Bool) : (s.setB b).word1 = s.word1 := rfl
@[simp] theorem State.setB_word2 (b : Bool) : (s.setB b).word2 = s.word2 := rfl
@[simp] theorem State.setB_wcount (b : Bool) : (s.setB b).wcount = s.wcount := rfl
@[simp] theorem State.setB_status (b : Bool) : (s.setB b).status = s.status := rfl
@[simp] theorem State.setB_arg0 (b : Bool) : (s.setB b).arg0 = s.arg0 := rfl
@[simp] theorem State.setB_arg1 (b : Bool) : (s.setB b).arg1 = s.arg1 := rfl
@[simp] theorem State.setB_narg (b : Bool) : (s.setB b).narg = s.narg := rfl
@[simp] theorem State.setB_txbuf (b : Bool) : (s.setB b).txbuf = s.txbuf := rfl
@[simp] theorem State.setB_rxbuf (b : Bool) : (s.setB b).rxbuf = s.rxbuf := rfl
@[simp] theorem State.setB_crcReg (b : Bool) : (s.setB b).crcReg = s.crcReg := rfl
@[simp] theorem State.setB_b (b : Bool) : (s.setB b).b = b := rfl
@[simp] theorem State.setB_env (b : Bool) : (s.setB b).env = s.env := rfl

/-! ### setEnv -/

@[simp] theorem State.setEnv_cfg (e : Env) : (s.setEnv e).cfg = s.cfg := rfl
@[simp] theorem State.setEnv_phase (e : Env) : (s.setEnv e).phase = s.phase := rfl
@[simp] theorem State.setEnv_kind (e : Env) : (s.setEnv e).kind = s.kind := rfl
@[simp] theorem State.setEnv_txn (e : Env) : (s.setEnv e).txn = s.txn := rfl
@[simp] theorem State.setEnv_pendCmd (e : Env) : (s.setEnv e).pendCmd = s.pendCmd := rfl
@[simp] theorem State.setEnv_tIssue (e : Env) : (s.setEnv e).tIssue = s.tIssue := rfl
@[simp] theorem State.setEnv_tWait (e : Env) : (s.setEnv e).tWait = s.tWait := rfl
@[simp] theorem State.setEnv_fsReg (e : Env) : (s.setEnv e).fsReg = s.fsReg := rfl
@[simp] theorem State.setEnv_fsValid (e : Env) : (s.setEnv e).fsValid = s.fsValid := rfl
@[simp] theorem State.setEnv_baseReg (e : Env) : (s.setEnv e).baseReg = s.baseReg := rfl
@[simp] theorem State.setEnv_baseValid (e : Env) : (s.setEnv e).baseValid = s.baseValid := rfl
@[simp] theorem State.setEnv_word0 (e : Env) : (s.setEnv e).word0 = s.word0 := rfl
@[simp] theorem State.setEnv_word1 (e : Env) : (s.setEnv e).word1 = s.word1 := rfl
@[simp] theorem State.setEnv_word2 (e : Env) : (s.setEnv e).word2 = s.word2 := rfl
@[simp] theorem State.setEnv_wcount (e : Env) : (s.setEnv e).wcount = s.wcount := rfl
@[simp] theorem State.setEnv_status (e : Env) : (s.setEnv e).status = s.status := rfl
@[simp] theorem State.setEnv_arg0 (e : Env) : (s.setEnv e).arg0 = s.arg0 := rfl
@[simp] theorem State.setEnv_arg1 (e : Env) : (s.setEnv e).arg1 = s.arg1 := rfl
@[simp] theorem State.setEnv_narg (e : Env) : (s.setEnv e).narg = s.narg := rfl
@[simp] theorem State.setEnv_txbuf (e : Env) : (s.setEnv e).txbuf = s.txbuf := rfl
@[simp] theorem State.setEnv_rxbuf (e : Env) : (s.setEnv e).rxbuf = s.rxbuf := rfl
@[simp] theorem State.setEnv_crcReg (e : Env) : (s.setEnv e).crcReg = s.crcReg := rfl
@[simp] theorem State.setEnv_b (e : Env) : (s.setEnv e).b = s.b := rfl
@[simp] theorem State.setEnv_env (e : Env) : (s.setEnv e).env = e := rfl

end Sys2Proof.Machine
end

