-- ==== Sys2Proof/Laws/Ops.lean ====
section
/-! SUPPORT. What each shared operation of Machine/Ops.lean can do, said once: most lemmas say that the state after is the
state before but for the fields named. -/

namespace Sys2Proof.Machine

/-! ### Combinators -/

/-- A checked continuation goes on where the check passes, and is refused where it does not. -/
theorem checked_next {chk : Check} {s t : State} {k : State → Result} (h : checked chk s k = .next t) :
    (chk = .pass ∧ k s = .next t) ∨ ∃ e, chk = .refuse e ∧ t = raise false e s := by
  cases chk with
  | pass => exact .inl ⟨rfl, h⟩
  | refuse e => exact .inr ⟨e, rfl, by simpa [checked] using h.symm⟩
  | stop f => simp [checked] at h

/-- Where a frame is issued, its argument words were there. -/
theorem issue_next {c : Cmd} {s t : State} {k : State → Result} (h : issue c s k = .next t) :
    ∃ s', assemble c (s.setTxn .write) = .ok s' ∧ k s' = .next t := by
  unfold issue at h
  split at h
  · cases h
  · exact ⟨_, ‹_›, h⟩

/-- A request that ends in a next state ends as its run closes. -/
theorem settle_next {need : Nat} {c : Cmd} {isRead : Bool} {k : State → State} {s t : State} {r : Run}
    (h : settle need c isRead k s r = .next t) : t = r.close isRead k := by
  unfold settle at h
  split at h
  · simpa using h.symm
  · cases r with
    | ok _ => simp at h
    | err e s' => simpa [Run.close] using h.symm

/-- A response with the words the request uses: it ends as its run closes. -/
theorem settle_enough {need : Nat} {c : Cmd} {isRead : Bool} {k : State → State} {s : State} {r : Run}
    (h : need ≤ (s.cfg.catalog.entry c).nResp.val) : settle need c isRead k s r = .next (r.close isRead k) := if_pos h

/-- A run that raised: the request ends as it closes, whatever words it would have used. -/
theorem settle_err {need : Nat} {c : Cmd} {isRead : Bool} {k : State → State} {s s' : State} {e : Error} :
    settle need c isRead k s (.err e s') = .next (raise isRead e s') := by
  unfold settle
  split <;> rfl

theorem andThen_ok {r : Run} {k : State → Run} {s' : State} (h : r.andThen k = .ok s') : ∃ s, r = .ok s ∧ k s = .ok s' := by
  cases r with
  | ok s => exact ⟨s, rfl, h⟩
  | err e s => cases h

theorem andThen_err {r : Run} {k : State → Run} {e : Error} {s' : State} (h : r.andThen k = .err e s') :
    r = .err e s' ∨ ∃ s, r = .ok s ∧ k s = .err e s' := by
  cases r with
  | ok s => exact .inr ⟨s, rfl, h⟩
  | err e₁ s => exact .inl h

/-! ### Raising and returning -/

theorem raise_eq (isRead : Bool) (e : Error) (s : State) :
    raise isRead e s =
      { s with status := statusOf e, wcount := 0, txn := .idle,
               phase := if isRead && e.stageCode == 2 then 2 else s.phase } := by
  unfold raise
  split <;> simp_all [State.setPhase, State.setTxn, State.setWcount, State.setStatus, Phase.bits]

theorem writeWords_eq (ws : List Word) (s : State) :
    ∃ w0 w1 w2, writeWords ws s =
      { s with word0 := w0, word1 := w1, word2 := w2, wcount := BitVec.ofNat 2 (min ws.length 3) } := by
  unfold writeWords
  split
  · exact ⟨s.word0, s.word1, s.word2, rfl⟩
  · exact ⟨_, _, _, rfl⟩
  · exact ⟨_, _, _, rfl⟩
  · rename_i w0 w1 w2 rest
    refine ⟨w0, w1, w2, ?_⟩
    rw [Nat.min_eq_right (by simp)]
    rfl

theorem ret_eq (ws : List Word) (s : State) :
    ∃ w0 w1 w2, ret ws s =
      { s with word0 := w0, word1 := w1, word2 := w2, wcount := BitVec.ofNat 2 (min ws.length 3), status := 0,
               txn := .idle } := by
  obtain ⟨w0, w1, w2, h⟩ := writeWords_eq ws s
  exact ⟨w0, w1, w2, by simp [ret, h, State.setStatus, State.setTxn]⟩

theorem loadArgs_eq (ws : List Word) (s : State) :
    ∃ a0 a1 n, loadArgs ws s = { s with arg0 := a0, arg1 := a1, narg := n } ∧ n.toNat ≤ 2 := by
  unfold loadArgs
  split <;> exact ⟨_, _, _, rfl, by decide⟩

/-- What a state holds once `n` argument words are loaded. -/
theorem readArgs_loadArgs (n : Fin 3) (ws : List Word) (s : State) (h : n.val = ws.length) :
    readArgs n (loadArgs ws s) = .ok ws := by
  match ws, n, h with
  | [], 0, _ => rfl
  | [w0], 1, _ => rfl
  | [w0, w1], 2, _ => rfl

/-! ### The checks -/

theorem readPhase_ok {s : State} {p : Phase} (h : readPhase s = .ok p) : s.phase = p.bits := by
  unfold readPhase at h
  split at h
  · cases h
    rename_i p hp
    unfold Phase.ofBits at hp
    repeat' split at hp
    all_goals cases hp
    all_goals assumption
  · cases h

theorem readPhase_of_bits {s : State} {p : Phase} (h : s.phase = p.bits) : readPhase s = .ok p := by
  unfold readPhase
  rw [h]
  cases p <;> rfl

/-- A command is admitted only in a phase of its column, which is never `MeasurementInFlight`. -/
theorem admit_pass {c : Cmd} {s : State} (h : admitCmd c s = .pass) :
    ∃ p, s.phase = p.bits ∧ p ≠ .measurementInFlight ∧ p ∈ c.allowedPhase ∧ (c.fsGate = true → fsGateCheck s = .pass) := by
  unfold admitCmd at h
  split at h
  · cases h
  · rename_i p hp
    repeat' split at h
    all_goals first | cases h | skip
    all_goals exact ⟨p, readPhase_ok hp, by simp_all [Catalog.lookup]⟩

/-- What a check before any bus I/O refuses with has stage 0 (R170). -/
theorem admit_refuse {c : Cmd} {s : State} {e : Error} (h : admitCmd c s = .refuse e) : e.stageCode = 0 := by
  unfold admitCmd fsGateCheck at h
  repeat' split at h
  all_goals first | cases h | skip
  all_goals rfl

theorem readAdmit_refuse {k : Kind} {s : State} {e : Error} (h : readAdmit k s = .refuse e) : e.stageCode = 0 := by
  unfold readAdmit earlyReadCheck at h
  repeat' split at h
  all_goals first | cases h | skip
  all_goals rfl

theorem readAdmit_pass {k : Kind} {s : State} (h : readAdmit k s = .pass) :
    s.phase = 3 ∧ s.kind = k ∧ waitElapsed s = true := by
  unfold readAdmit at h
  split at h
  · cases h
  · rename_i p hp
    have hp := readPhase_ok hp
    unfold earlyReadCheck at h
    repeat' split at h
    all_goals first | cases h | skip
    all_goals simp_all [Phase.bits]

/-! ### The ports -/

theorem busWrite_eq (bs : List Byte) (s : State) : busWrite bs s = { s with env := (busWrite bs s).env } := rfl

theorem busRead_eq (n : Nat) (s : State) : busRead n s = { s with env := (busRead n s).env } := rfl

@[simp] theorem busWrite_env (bs : List Byte) (s : State) :
    (busWrite bs s).env =
      { s.env with
        writes := s.env.writes.tail, now := s.env.now + (nextWrite s).dt, calls := s.env.calls + 1,
        trace := s.env.trace ++ [⟨s.env.now, s.txn, .write s.cfg.addr bs (nextWrite s).result⟩] } := rfl

@[simp] theorem busRead_env (n : Nat) (s : State) :
    (busRead n s).env =
      { s.env with
        reads := s.env.reads.tail, now := s.env.now + (nextRead s).dt, calls := s.env.calls + 1,
        trace := s.env.trace ++ [⟨s.env.now, s.txn, .read s.cfg.addr n (nextRead s).result⟩] } := rfl

@[simp] theorem sleepCall_env (us dt : Nat) (s : State) :
    (sleepCall us dt s).env =
      { s.env with
        sleeps := s.env.sleeps.tail, now := s.env.now + dt, calls := s.env.calls + 1,
        trace := s.env.trace ++ [⟨s.env.now, s.txn, .sleep us⟩] } := rfl

/-! ### The protocol engine -/

/-- The argument words of a frame are those that `ARG` holds. -/
theorem readArgs_ok {n : Fin 3} {s : State} {ws : List Word} (h : readArgs n s = .ok ws) :
    ws.length = n.val ∧ ws = [s.arg0, s.arg1].take n.val := by
  unfold readArgs at h
  split at h
  · cases h; exact ⟨rfl, rfl⟩
  · unfold readArg at h
    split at h <;> simp [Except.map] at h
    subst h; exact ⟨rfl, rfl⟩
  · by_cases h0 : 0 < s.narg.toNat <;> by_cases h1 : 1 < s.narg.toNat <;> simp [readArg, h0, h1, Except.map] at h
    subst h
    exact ⟨rfl, rfl⟩

/-- The frame is assembled from the argument words, and nothing but `TXBUF` and `CRC_REG` is written. -/
theorem assemble_ok {c : Cmd} {s s' : State} (h : assemble c s = .ok s') :
    ∃ ws, readArgs (s.cfg.catalog.entry c).nArg s = .ok ws ∧
      s' = { s with txbuf := frameOf (s.cfg.catalog.entry c).opcode ws, crcReg := s'.crcReg } ∧
      (ws = [] → s'.crcReg = s.crcReg) := by
  unfold assemble at h
  simp only [Catalog.lookup] at h
  split at h
  · cases h
  · rename_i ws hws
    cases h
    exact ⟨ws, hws, rfl, fun hn => by subst hn; rfl⟩

/-- With the argument words its entry asks for loaded, the frame of a command is assembled from them. -/
theorem assemble_loadArgs (c : Cmd) (ws : List Word) (s : State) (h : (s.cfg.catalog.entry c).nArg.val = ws.length) :
    ∃ s', assemble c ((loadArgs ws s).setTxn .write) = .ok s' ∧ s'.txbuf = frameOf (s.cfg.catalog.entry c).opcode ws := by
  obtain ⟨a0, a1, n, hl, -⟩ := loadArgs_eq ws s
  have hr : readArgs (s.cfg.catalog.entry c).nArg ((loadArgs ws s).setTxn .write) = .ok ws := by
    have := readArgs_loadArgs (s.cfg.catalog.entry c).nArg ws s h
    simpa [readArgs, readArg, State.setTxn] using this
  have hc : ((loadArgs ws s).setTxn .write).cfg = s.cfg := by simp [hl]
  unfold assemble
  simp only [Catalog.lookup, hc, hr]
  exact ⟨_, rfl, rfl⟩

/-- A write is acknowledged and its issue recorded, or it fails and nothing is recorded (R102). -/
theorem writePath_cases (c : Cmd) (s : State) :
    ((nextWrite s).result = .ack ∧
      writePath c s = .ok { s with pendCmd := c, tIssue := BitVec.ofNat 64 (s.env.now + (nextWrite s).dt),
                                   tWait := (s.cfg.catalog.entry c).waitUs, env := (busWrite s.txbuf s).env }) ∨
    ∃ f, (nextWrite s).result = (match f with | .nack => .nack | .ioerr => .ioerr) ∧
      writePath c s = .err (.commWrite f) { s with env := (busWrite s.txbuf s).env } := by
  unfold writePath
  cases h : (nextWrite s).result with
  | ack => exact .inl ⟨rfl, rfl⟩
  | nack => exact .inr ⟨.nack, rfl, rfl⟩
  | ioerr => exact .inr ⟨.ioerr, rfl, rfl⟩

theorem sleepLoop_eq (ds : List Nat) : ∀ (us : Nat) (s : State),
    sleepLoop us ds s = { s with env := (sleepLoop us ds s).env } := by
  induction ds with
  | nil => intro us s; rfl
  | cons d ds ih =>
    intro us s
    unfold sleepLoop
    split
    · rfl
    · rw [ih]
      rfl

/-- Sleeping moves the clock on, uses up sleep answers, and records sleeps; the rest of the environment stays. -/
theorem sleepLoop_env (ds : List Nat) : ∀ (us : Nat) (s : State),
    (sleepLoop us ds s).env.host = s.env.host ∧ (sleepLoop us ds s).env.writes = s.env.writes ∧
    (sleepLoop us ds s).env.reads = s.env.reads ∧ s.env.now ≤ (sleepLoop us ds s).env.now ∧
    ∃ slept, (sleepLoop us ds s).env.trace = s.env.trace ++ slept ∧ slept ≠ [] ∧
      ∀ e ∈ slept, e.txn = s.txn ∧ (∃ u, e.call = .sleep u) ∧ s.env.now ≤ e.time ∧
        e.time ≤ (sleepLoop us ds s).env.now := by
  induction ds with
  | nil =>
    intro us s
    refine ⟨rfl, rfl, rfl, by simp [sleepLoop], [⟨s.env.now, s.txn, .sleep us⟩], rfl, by simp, ?_⟩
    simp [sleepLoop]
  | cons d ds ih =>
    intro us s
    unfold sleepLoop
    split
    · refine ⟨rfl, rfl, rfl, by simp, [⟨s.env.now, s.txn, .sleep us⟩], rfl, by simp, by simp⟩
    · obtain ⟨h1, h2, h3, h4, slept, h5, -, h7⟩ :=
        ih (s.tWait.toNat - (elapsed (sleepCall us d s)).toNat) (sleepCall us d s)
      have hn : s.env.now ≤ (sleepCall us d s).env.now := by simp
      refine ⟨h1, h2, h3, Nat.le_trans hn h4, ⟨s.env.now, s.txn, .sleep us⟩ :: slept, by simp [h5], by simp, ?_⟩
      intro e he
      rcases List.mem_cons.1 he with rfl | he
      · exact ⟨rfl, ⟨us, rfl⟩, Nat.le_refl _, Nat.le_trans hn h4⟩
      · obtain ⟨a, b, c, d⟩ := h7 e he
        exact ⟨a, b, Nat.le_trans hn c, d⟩

theorem waitPath_eq (s : State) : waitPath s = { s with txn := .wait, env := (waitPath s).env } := by
  unfold waitPath
  rw [sleepLoop_eq]
  rfl

theorem waitPath_env (s : State) :
    (waitPath s).env.host = s.env.host ∧ (waitPath s).env.writes = s.env.writes ∧
    (waitPath s).env.reads = s.env.reads ∧ s.env.now ≤ (waitPath s).env.now ∧
    ∃ slept, (waitPath s).env.trace = s.env.trace ++ slept ∧ slept ≠ [] ∧
      ∀ e ∈ slept, e.txn = .wait ∧ (∃ u, e.call = .sleep u) ∧ s.env.now ≤ e.time ∧ e.time ≤ (waitPath s).env.now :=
  sleepLoop_env _ _ _

/-- Verification writes nothing but `CRC_REG`, and raises nothing but a checksum mismatch. -/
theorem verifyTriples_ok {s' : State} : ∀ (bs : List Byte) (i : Nat) (s : State), verifyTriples i bs s = .ok s' →
    s' = { s with crcReg := s'.crcReg } := by
  intro bs
  induction bs using wordsOf.induct with
  | case1 b0 b1 c rest ih =>
    intro i s h
    unfold verifyTriples at h
    split at h
    · rw [ih _ _ h]
      rfl
    · cases h
  | case2 => intro i s h; cases h; rfl
  | case3 => intro i s h; cases h; rfl
  | case4 => intro i s h; cases h; rfl

theorem verifyTriples_err {e : Error} {s' : State} : ∀ (bs : List Byte) (i : Nat) (s : State),
    verifyTriples i bs s = .err e s' → s' = { s with crcReg := s'.crcReg } ∧ ∃ j, e = .crcMismatch j := by
  intro bs
  induction bs using wordsOf.induct with
  | case1 b0 b1 c rest ih =>
    intro i s h
    unfold verifyTriples at h
    split at h
    · obtain ⟨h1, h2⟩ := ih _ _ h
      exact ⟨by rw [h1]; rfl, h2⟩
    · cases h
      exact ⟨rfl, _, rfl⟩
  | case2 => intro i s h; cases h
  | case3 => intro i s h; cases h
  | case4 => intro i s h; cases h

/-- A successful read has made its one call, and has written nothing but `TXN`, `WORD`, `WCOUNT`, `RXBUF` and `CRC_REG`. -/
theorem receive_ok {m : Nat} {s s' : State} (h : receive m s = .ok s') :
    s' = { s with txn := .verify, word0 := s'.word0, word1 := s'.word1, word2 := s'.word2, wcount := s'.wcount,
                  rxbuf := s'.rxbuf, crcReg := s'.crcReg, env := (busRead (3 * m) s).env } ∧ s'.rxbuf.length ≤ 9 := by
  unfold receive at h
  split at h
  · cases h
  · cases h
  · rename_i bs _
    split at h
    · obtain ⟨s₁, h₁, h₂⟩ := andThen_ok h
      cases h₂
      obtain ⟨w0, w1, w2, hw⟩ := writeWords_eq (wordsOf ((busRead (3 * m) s).setRxbuf (bs.take 9)).rxbuf) s₁
      rw [hw, verifyTriples_ok _ _ _ h₁]
      exact ⟨rfl, by simp <;> omega⟩
    · cases h

/-- A failing read has made its one call, raises an error of stage 2, and has written no word. -/
theorem receive_err {m : Nat} {e : Error} {s s' : State} (h : receive m s = .err e s') :
    e.stageCode = 2 ∧
    s' = { s with txn := s'.txn, rxbuf := s'.rxbuf, crcReg := s'.crcReg, env := (busRead (3 * m) s).env } ∧
    (s'.rxbuf = s.rxbuf ∨ s'.rxbuf.length ≤ 9) := by
  unfold receive at h
  split at h
  · cases h
    exact ⟨rfl, rfl, .inl rfl⟩
  · cases h
    exact ⟨rfl, rfl, .inl rfl⟩
  · split at h
    · rcases andThen_err h with h₁ | ⟨s₁, -, h₂⟩
      · obtain ⟨h₂, j, rfl⟩ := verifyTriples_err _ _ _ h₁
        rw [h₂]
        exact ⟨rfl, rfl, .inr (by simp <;> omega)⟩
      · cases h₂
    · cases h
      exact ⟨rfl, rfl, .inr (by simp <;> omega)⟩

theorem readPath_def (c : Cmd) (s : State) :
    readPath c s =
      if (s.cfg.catalog.entry c).nResp.val = 0 then .ok (s.setWcount 0)
      else receive (s.cfg.catalog.entry c).nResp.val (s.setTxn .read) := rfl

/-- R70, R75: the read of a response computes a checksum only over an answer of the length asked for. -/
theorem receive_crc {m : Nat} {s s' : State} (h : receive m s = .ok s' ∨ ∃ e, receive m s = .err e s')
    (hne : s'.crcReg ≠ s.crcReg) : ∃ bs, (nextRead s).result = .bytes bs ∧ bs.length = 3 * m := by
  unfold receive at h
  split at h
  · obtain h | ⟨e, h⟩ := h <;> cases h
    exact absurd rfl hne
  · obtain h | ⟨e, h⟩ := h <;> cases h
    exact absurd rfl hne
  · rename_i bs hbs
    split at h
    · exact ⟨bs, hbs, ‹_›⟩
    · obtain h | ⟨e, h⟩ := h <;> cases h
      exact absurd rfl hne

theorem readPath_ok {c : Cmd} {s s' : State} (h : readPath c s = .ok s') :
    ((s.cfg.catalog.entry c).nResp.val = 0 ∧ s' = { s with wcount := 0 }) ∨
    ((s.cfg.catalog.entry c).nResp.val ≠ 0 ∧
      receive (s.cfg.catalog.entry c).nResp.val (s.setTxn .read) = .ok s') := by
  rw [readPath_def] at h
  split at h
  · cases h
    exact .inl ⟨‹_›, rfl⟩
  · exact .inr ⟨‹_›, h⟩

theorem readPath_err {c : Cmd} {e : Error} {s s' : State} (h : readPath c s = .err e s') :
    (s.cfg.catalog.entry c).nResp.val ≠ 0 ∧
    receive (s.cfg.catalog.entry c).nResp.val (s.setTxn .read) = .err e s' := by
  rw [readPath_def] at h
  split at h
  · cases h
  · exact ⟨‹_›, h⟩

end Sys2Proof.Machine
end

