-- ==== Sys2Proof/Laws/Engine.lean ====
section
/-! SUPPORT. How the runs of the protocol engine and the shared request shapes can end: one case lemma each, over the lemmas
of Laws/Ops.lean. -/

namespace Sys2Proof.Machine

/-- The state after an acknowledged write of `TXBUF`, its issue recorded (R102). -/
def issued (c : Cmd) (s : State) : State :=
  { s with pendCmd := c, tIssue := BitVec.ofNat 64 (s.env.now + (nextWrite s).dt),
           tWait := (s.cfg.catalog.entry c).waitUs, env := (busWrite s.txbuf s).env }

/-- The state after a write of `TXBUF` that failed (R102). -/
def notIssued (s : State) : State := { s with env := (busWrite s.txbuf s).env }

theorem writePath_ack {c : Cmd} {s : State} (h : (nextWrite s).result = .ack) : writePath c s = .ok (issued c s) := by
  unfold writePath
  rw [h]
  rfl

theorem writePath_fail {c : Cmd} {s : State} (h : (nextWrite s).result ≠ .ack) :
    ∃ f, writePath c s = .err (.commWrite f) (notIssued s) ∧
      (nextWrite s).result = (match f with | .nack => .nack | .ioerr => .ioerr) := by
  unfold writePath
  cases hr : (nextWrite s).result with
  | ack => exact absurd hr h
  | nack => exact ⟨.nack, rfl, rfl⟩
  | ioerr => exact ⟨.ioerr, rfl, rfl⟩

/-- `Execute(c, FULL)`: the write fails, or the read after the wait fails, or both succeed. -/
theorem runFull_cases (c : Cmd) (s : State) :
    (∃ f, (nextWrite s).result ≠ .ack ∧ runFull c s = .err (.commWrite f) (notIssued s)) ∨
    ((nextWrite s).result = .ack ∧
      ((∃ e s', readPath c (waitPath (issued c s)) = .err e s' ∧ runFull c s = .err e s') ∨
       ∃ s', readPath c (waitPath (issued c s)) = .ok s' ∧ runFull c s = .ok (s'.setTxn .idle))) := by
  by_cases h : (nextWrite s).result = .ack
  · refine .inr ⟨h, ?_⟩
    unfold runFull
    rw [writePath_ack h]
    cases hr : readPath c (waitPath (issued c s)) with
    | ok s' => exact .inr ⟨s', rfl, by simp [Run.andThen, hr]⟩
    | err e s' => exact .inl ⟨e, s', rfl, by simp [Run.andThen, hr]⟩
  · obtain ⟨f, hf, -⟩ := writePath_fail (c := c) h
    exact .inl ⟨f, h, by simp [runFull, hf, Run.andThen]⟩

/-- `Execute(c, WRITE_ONLY)`. -/
theorem runWriteOnly_cases (c : Cmd) (s : State) :
    (∃ f, (nextWrite s).result ≠ .ack ∧ runWriteOnly c s = .err (.commWrite f) (notIssued s)) ∨
    ((nextWrite s).result = .ack ∧ runWriteOnly c s = .ok ((issued c s).setTxn .idle)) := by
  by_cases h : (nextWrite s).result = .ack
  · exact .inr ⟨h, by simp [runWriteOnly, writePath_ack h, Run.andThen]⟩
  · obtain ⟨f, hf, -⟩ := writePath_fail (c := c) h
    exact .inl ⟨f, h, by simp [runWriteOnly, hf, Run.andThen]⟩

/-- `Execute(c, READ_ONLY)`. -/
theorem runReadOnly_cases (c : Cmd) (s : State) :
    (∃ e s', readPath c s = .err e s' ∧ runReadOnly c s = .err e s') ∨
    ∃ s', readPath c s = .ok s' ∧ runReadOnly c s = .ok (s'.setTxn .idle) := by
  cases hr : readPath c s with
  | ok s' => exact .inr ⟨s', rfl, by simp [runReadOnly, hr, Run.andThen]⟩
  | err e s' => exact .inl ⟨e, s', rfl, by simp [runReadOnly, hr, Run.andThen]⟩

/-- The state a blocking read waits from: its command issued, its kind in flight. -/
def issuedInFlight (k : Kind) (s : State) : State := inFlight k ((issued k.cmd s).setTxn .idle)

/-- The run of a blocking read: as `Execute(c, FULL)`, with the kind in flight from the write on, and taken back where the read
raises. -/
theorem runBlocking_cases (k : Kind) (s : State) :
    (∃ f, (nextWrite s).result ≠ .ack ∧ runBlocking k s = .err (.commWrite f) (notIssued s)) ∨
    ((nextWrite s).result = .ack ∧
      ((∃ e s', readPath k.cmd (waitPath (issuedInFlight k s)) = .err e s' ∧ runBlocking k s = .err e (s'.setKind s.kind)) ∨
       ∃ s', readPath k.cmd (waitPath (issuedInFlight k s)) = .ok s' ∧ runBlocking k s = .ok (s'.setTxn .idle))) := by
  rcases runWriteOnly_cases k.cmd s with ⟨f, h, hw⟩ | ⟨h, hw⟩
  · exact .inl ⟨f, h, by simp [runBlocking, hw, Run.andThen]⟩
  · refine .inr ⟨h, ?_⟩
    rcases runReadOnly_cases k.cmd (waitPath (issuedInFlight k s)) with ⟨e, s', hr, hx⟩ | ⟨s', hr, hx⟩
    all_goals unfold issuedInFlight at hx
    · exact .inl ⟨e, s', hr, by simp [runBlocking, hw, Run.andThen, hx, Run.onRaise]⟩
    · exact .inr ⟨s', hr, by simp [runBlocking, hw, Run.andThen, hx, Run.onRaise]⟩

/-- `s'` is `s` with a frame of `c` assembled in `TXBUF` from argument words loaded into `ARG`. -/
structure Assembled (c : Cmd) (s s' : State) : Prop where
  frame : ∃ ws, ws.length = (s.cfg.catalog.entry c).nArg.val ∧
    ws = [s'.arg0, s'.arg1].take (s.cfg.catalog.entry c).nArg.val ∧ s'.txbuf = frameOf (s.cfg.catalog.entry c).opcode ws
  narg : s'.narg.toNat ≤ 2
  rest : s' = { s with txn := .write, arg0 := s'.arg0, arg1 := s'.arg1, narg := s'.narg, txbuf := s'.txbuf,
                       crcReg := s'.crcReg }
  /-- R70: a frame without argument words has no checksum. -/
  crc : s'.crcReg ≠ s.crcReg → 2 < s'.txbuf.length

theorem assembled_of_assemble {c : Cmd} {args : List Word} {s s' : State}
    (h : assemble c ((loadArgs args s).setTxn .write) = .ok s') : Assembled c s s' := by
  obtain ⟨a0, a1, n, hl, hn⟩ := loadArgs_eq args s
  obtain ⟨ws, hws, hs, hc⟩ := assemble_ok h
  obtain ⟨hlen, htake⟩ := readArgs_ok hws
  rw [hl] at hs hlen htake hc
  refine ⟨⟨ws, ?_⟩, ?_, ?_, fun hne => ?_⟩
  · rw [hs]
    exact ⟨hlen, htake, rfl⟩
  · rw [hs]
    exact hn
  · rw [hs]
    rfl
  · have : ws ≠ [] := fun he => hne (hc he)
    have := List.length_pos_iff.2 this
    rw [hs]
    simp only [frameOf_length]
    omega

/-- A request in mode `FULL` is refused before any bus I/O, or its run closes it. -/
theorem fullRequest_next {c : Cmd} {args : List Word} {need : Nat} {k : State → State} {s t : State}
    (h : fullRequest c args need k s = .next t) :
    (∃ e, admitCmd c s = .refuse e ∧ t = raise false e s) ∨
    (admitCmd c s = .pass ∧ ∃ s', Assembled c s s' ∧ t = (runFull c s').close false k) := by
  rcases checked_next h with ⟨hp, h⟩ | h
  · obtain ⟨s', ha, h⟩ := issue_next h
    exact .inr ⟨hp, s', assembled_of_assemble ha, settle_next h⟩
  · exact .inl h

/-- A request in mode `FULL` that is admitted, with the argument words its catalog entry asks for, runs. -/
theorem fullRequest_pass {c : Cmd} {args : List Word} {need : Nat} {k : State → State} {s : State}
    (hp : admitCmd c s = .pass) (ha : (s.cfg.catalog.entry c).nArg.val = args.length) :
    ∃ s', Assembled c s s' ∧ s'.txbuf = frameOf (s.cfg.catalog.entry c).opcode args ∧
      fullRequest c args need k s = settle need c false k s' (runFull c s') := by
  obtain ⟨s', hr, hb⟩ := assemble_loadArgs c args s ha
  refine ⟨s', assembled_of_assemble hr, hb, ?_⟩
  unfold fullRequest checked issue
  rw [hp]
  simp only [hr]

/-- A split measure that is admitted runs. -/
theorem measureStart_pass {k : Kind} {s : State} (hp : admitCmd k.cmd s = .pass)
    (ha : (s.cfg.catalog.entry k.cmd).nArg.val = 0) :
    ∃ s', Assembled k.cmd s s' ∧ s'.txbuf = frameOf (s.cfg.catalog.entry k.cmd).opcode [] ∧
      measureStart k s = .next ((runWriteOnly k.cmd s').close false fun s => ret [] (inFlight k s)) := by
  obtain ⟨s', hr, hb⟩ := assemble_loadArgs k.cmd [] s ha
  refine ⟨s', assembled_of_assemble hr, hb, ?_⟩
  unfold measureStart checked issue
  rw [hp]
  simp only [hr]

/-- A blocking read that is admitted runs. -/
theorem measureBlocking_pass {k : Kind} {s : State} (hp : admitCmd k.cmd s = .pass)
    (ha : (s.cfg.catalog.entry k.cmd).nArg.val = 0) :
    ∃ s', Assembled k.cmd s s' ∧ s'.txbuf = frameOf (s.cfg.catalog.entry k.cmd).opcode [] ∧
      measureBlocking k s = settle 2 k.cmd true (readDone k) s' (runBlocking k s') := by
  obtain ⟨s', hr, hb⟩ := assemble_loadArgs k.cmd [] s ha
  refine ⟨s', assembled_of_assemble hr, hb, ?_⟩
  unfold measureBlocking checked issue
  rw [hp]
  simp only [hr]

/-- A split read that is admitted runs. -/
theorem measureRead_pass {k : Kind} {s : State} (hp : readAdmit k s = .pass) :
    measureRead k s = settle 2 k.cmd true (readDone k) s (runReadOnly k.cmd s) := by
  simp [measureRead, checked, hp]

/-- A split measure is refused before any bus I/O, or its write closes it. -/
theorem measureStart_next {k : Kind} {s t : State} (h : measureStart k s = .next t) :
    (∃ e, admitCmd k.cmd s = .refuse e ∧ t = raise false e s) ∨
    (admitCmd k.cmd s = .pass ∧ ∃ s', Assembled k.cmd s s' ∧
      t = (runWriteOnly k.cmd s').close false fun s => ret [] (inFlight k s)) := by
  rcases checked_next h with ⟨hp, h⟩ | h
  · obtain ⟨s', ha, h⟩ := issue_next h
    exact .inr ⟨hp, s', assembled_of_assemble ha, by simpa using h.symm⟩
  · exact .inl h

/-- A split read is refused before any bus I/O, or its read closes it. -/
theorem measureRead_next {k : Kind} {s t : State} (h : measureRead k s = .next t) :
    (∃ e, readAdmit k s = .refuse e ∧ t = raise false e s) ∨
    (readAdmit k s = .pass ∧ t = (runReadOnly k.cmd s).close true (readDone k)) := by
  rcases checked_next h with ⟨hp, h⟩ | h
  · exact .inr ⟨hp, settle_next h⟩
  · exact .inl h

/-- A blocking read is refused before any bus I/O, or its run closes it. -/
theorem measureBlocking_next {k : Kind} {s t : State} (h : measureBlocking k s = .next t) :
    (∃ e, admitCmd k.cmd s = .refuse e ∧ t = raise false e s) ∨
    (admitCmd k.cmd s = .pass ∧ ∃ s', Assembled k.cmd s s' ∧ t = (runBlocking k s').close true (readDone k)) := by
  rcases checked_next h with ⟨hp, h⟩ | h
  · obtain ⟨s', ha, h⟩ := issue_next h
    exact .inr ⟨hp, s', assembled_of_assemble ha, settle_next h⟩
  · exact .inl h

/-! ### Where a check does not pass -/

theorem fullRequest_refused {c : Cmd} {args : List Word} {need : Nat} {k : State → State} {s : State} {e : Error}
    (h : admitCmd c s = .refuse e) : fullRequest c args need k s = .next (raise false e s) := by
  simp [fullRequest, checked, h]

theorem fullRequest_stopped {c : Cmd} {args : List Word} {need : Nat} {k : State → State} {s : State} {f : Fault}
    (h : admitCmd c s = .stop f) : fullRequest c args need k s = .fault f := by
  simp [fullRequest, checked, h]

theorem measureStart_refused {k : Kind} {s : State} {e : Error} (h : admitCmd k.cmd s = .refuse e) :
    measureStart k s = .next (raise false e s) := by
  simp [measureStart, checked, h]

theorem measureStart_stopped {k : Kind} {s : State} {f : Fault} (h : admitCmd k.cmd s = .stop f) :
    measureStart k s = .fault f := by
  simp [measureStart, checked, h]

theorem measureBlocking_refused {k : Kind} {s : State} {e : Error} (h : admitCmd k.cmd s = .refuse e) :
    measureBlocking k s = .next (raise false e s) := by
  simp [measureBlocking, checked, h]

theorem measureBlocking_stopped {k : Kind} {s : State} {f : Fault} (h : admitCmd k.cmd s = .stop f) :
    measureBlocking k s = .fault f := by
  simp [measureBlocking, checked, h]

theorem measureRead_refused {k : Kind} {s : State} {e : Error} (h : readAdmit k s = .refuse e) :
    measureRead k s = .next (raise false e s) := by
  simp [measureRead, checked, h]

theorem measureRead_stopped {k : Kind} {s : State} {f : Fault} (h : readAdmit k s = .stop f) :
    measureRead k s = .fault f := by
  simp [measureRead, checked, h]

end Sys2Proof.Machine
end

