-- ==== Sys2Proof/Laws/Exec.lean ====
section
/-! SUPPORT. Every way in which `exec` can answer a next state, said once: six shapes for the 36 instructions. A statement
about all instructions is a case split over these shapes. -/

namespace Sys2Proof.Machine

/-- The last rule lines of an instruction in mode `FULL`, run where its transaction has returned. -/
def postOf : Instr → State → State
  | .probe, s => probeDone s
  | .getSerialId, s => ret [s.word0, s.word1, s.word2] s
  | .getFeatureSetVersion, s => ret [s.word0] (s.setFeatureSet s.word0)
  | .iaqInit, s => ret [] (s.setPhase .iaqInitialized)
  | .getIaqBaseline, s => ret [s.word0, s.word1] (s.setBaseline (baselineReg s.word0 s.word1))
  | .setIaqBaseline a0 a1, s => ret [] (s.setBaseline (baselineReg (a0Word a0) a1))
  | .getTvocInceptiveBaseline, s => ret [s.word0] s
  | .setTvocBaseline _, s => ret [] s
  | .setAbsoluteHumidity _, s => ret [] s
  | .measureTest, s => ret [s.word0] (s.setB (s.word0 == s.cfg.testPass))
  | .cmdIaqInit _ _, s | .cmdMeasureIaq _ _, s | .cmdGetIaqBaseline _ _, s | .cmdSetIaqBaseline _ _, s
  | .cmdSetAbsoluteHumidity _ _, s | .cmdMeasureTest _ _, s | .cmdGetFeatureSet _ _, s | .cmdMeasureRaw _ _, s
  | .cmdGetTvocInceptiveBaseline _ _, s | .cmdSetTvocBaseline _ _, s | .cmdGetSerialId _ _, s => retWire s
  | .measureIaq, s | .readIaq, s | .measureIaqBlockingRead, s | .measureTvoc, s | .readTvoc, s
  | .measureTvocBlockingRead, s | .measureCo2Eq, s | .readCo2Eq, s | .measureCo2EqBlockingRead, s | .measureRaw, s
  | .readRaw, s | .measureRawBlockingRead, s | .crcCompute _, s | .crcVerify _ _, s | .reserved _, s => s

/-! ### The operands -/

theorem a0TooWide_iff (a0 : BitVec 32) : a0TooWide a0 = true ↔ 2 ^ 16 ≤ a0.toNat := by
  have := a0.isLt
  unfold a0TooWide a0High
  rw [bne_iff_ne, ne_eq, ← BitVec.toNat_inj, BitVec.extractLsb'_toNat, Nat.shiftRight_eq_div_pow]
  simp
  omega

theorem a1TooWide_iff (a1 : BitVec 16) : a1TooWide a1 = true ↔ 2 ^ 8 ≤ a1.toNat := by
  have := a1.isLt
  unfold a1TooWide a1High
  rw [bne_iff_ne, ne_eq, ← BitVec.toNat_inj, BitVec.extractLsb'_toNat, Nat.shiftRight_eq_div_pow]
  simp
  omega

theorem a0TooWide_eq_false {a0 : BitVec 32} (h : a0.toNat < 2 ^ 16) : a0TooWide a0 = false :=
  Bool.eq_false_iff.2 fun hw => Nat.not_le.2 h ((a0TooWide_iff a0).1 hw)

theorem a1TooWide_eq_false {a1 : BitVec 16} (h : a1.toNat < 2 ^ 8) : a1TooWide a1 = false :=
  Bool.eq_false_iff.2 fun hw => Nat.not_le.2 h ((a1TooWide_iff a1).1 hw)

theorem humidityValid_iff (a0 : BitVec 32) : humidityValid a0 = true ↔ 0 ≤ a0.toInt ∧ a0.toInt ≤ 256000 :=
  ⟨fun h => of_decide_eq_true h, fun h => decide_eq_true h⟩

/-! ### Refusals before any bus I/O -/

/-- Why an instruction is refused before any bus I/O (R177). -/
inductive RefusedBy (i : Instr) (s : State) (e : Error) : Prop where
  | code (code : BitVec 8) (hi : i = .reserved code) (he : e = .illegalRequest)
  | width (hv : ¬i.operandsValid) (he : e = .argWidth)
  | range (a0 : BitVec 32) (hi : i = .setAbsoluteHumidity a0) (hv : ¬i.operandsValid) (he : e = .humidityRange)
  | admitCmd (c : Cmd) (hi : i.issues = some c) (hv : i.operandsValid) (ha : admitCmd c (begin s) = .refuse e)
  | readAdmit (k : Kind) (hi : i = k.readRequest) (ha : readAdmit k (begin s) = .refuse e)

/-- What a refused request leaves: nothing but `STATUS`, `WCOUNT` and `TXN` is written. -/
theorem raise_begin (e : Error) (s : State) : raise false e (begin s) = refusedWith (statusOf e) s := by
  rw [raise_eq]
  rfl

/-- The gates come first in every instruction that issues a command, once its operands have passed. -/
theorem exec_refused {i : Instr} {c : Cmd} {s : State} {e : Error} (hi : i.issues = some c) (hv : i.operandsValid)
    (ha : admitCmd c (begin s) = .refuse e) : exec i s = .next (refusedWith (statusOf e) s) := by
  rw [← raise_begin]
  cases i
  case setIaqBaseline a0 a1 =>
    cases hi
    simp [exec, execSetIaqBaseline, a0TooWide_eq_false hv, fullRequest_refused ha]
  case setTvocBaseline a0 =>
    cases hi
    simp [exec, execSetTvocBaseline, a0TooWide_eq_false hv, fullRequest_refused ha]
  case setAbsoluteHumidity a0 =>
    cases hi
    simp [exec, execSetAbsoluteHumidity, (humidityValid_iff a0).2 hv, fullRequest_refused ha]
  all_goals cases hi
  all_goals
    first
    | exact fullRequest_refused ha
    | exact measureStart_refused (k := .iaq) ha
    | exact measureStart_refused (k := .tvoc) ha
    | exact measureStart_refused (k := .co2eq) ha
    | exact measureStart_refused (k := .raw) ha
    | exact measureBlocking_refused (k := .iaq) ha
    | exact measureBlocking_refused (k := .tvoc) ha
    | exact measureBlocking_refused (k := .co2eq) ha
    | exact measureBlocking_refused (k := .raw) ha

/-- A phase that is never written stops every instruction that issues a command, once its operands have passed. -/
theorem exec_stopped {i : Instr} {c : Cmd} {s : State} {f : Fault} (hi : i.issues = some c) (hv : i.operandsValid)
    (ha : admitCmd c (begin s) = .stop f) : exec i s = .fault f := by
  cases i
  case setIaqBaseline a0 a1 =>
    cases hi
    simp [exec, execSetIaqBaseline, a0TooWide_eq_false hv, fullRequest_stopped ha]
  case setTvocBaseline a0 =>
    cases hi
    simp [exec, execSetTvocBaseline, a0TooWide_eq_false hv, fullRequest_stopped ha]
  case setAbsoluteHumidity a0 =>
    cases hi
    simp [exec, execSetAbsoluteHumidity, (humidityValid_iff a0).2 hv, fullRequest_stopped ha]
  all_goals cases hi
  all_goals
    first
    | exact fullRequest_stopped ha
    | exact measureStart_stopped (k := .iaq) ha
    | exact measureStart_stopped (k := .tvoc) ha
    | exact measureStart_stopped (k := .co2eq) ha
    | exact measureStart_stopped (k := .raw) ha
    | exact measureBlocking_stopped (k := .iaq) ha
    | exact measureBlocking_stopped (k := .tvoc) ha
    | exact measureBlocking_stopped (k := .co2eq) ha
    | exact measureBlocking_stopped (k := .raw) ha

theorem exec_read_refused {k : Kind} {s : State} {e : Error} (ha : readAdmit k (begin s) = .refuse e) :
    exec k.readRequest s = .next (refusedWith (statusOf e) s) := by
  rw [← raise_begin]
  cases k <;> exact measureRead_refused ha

theorem exec_read_stopped {k : Kind} {s : State} {f : Fault} (ha : readAdmit k (begin s) = .stop f) :
    exec k.readRequest s = .fault f := by
  cases k <;> exact measureRead_stopped ha

/-! ### The shapes -/

/-- The shapes in which `exec i s` answers `next t`. -/
inductive Shape (i : Instr) (s t : State) : Prop where
  /-- Refused before any bus I/O. -/
  | refused (e : Error) (hr : RefusedBy i s e) (he : e.stageCode = 0) (ht : t = refusedWith (statusOf e) s)
  | crcCompute (a0 : BitVec 32) (hi : i = .crcCompute a0)
      (ht : t = ret [(crc8 (a0Byte0 a0) (a0Byte1 a0)).setWidth 16] ((begin s).setCrc (crc8 (a0Byte0 a0) (a0Byte1 a0))))
  | crcVerify (a0 : BitVec 32) (a1 : BitVec 16) (hi : i = .crcVerify a0 a1)
      (ht : t = ret [] (((begin s).setCrc (crc8 (a0Byte0 a0) (a0Byte1 a0))).setB
        (verify (a0Byte0 a0) (a0Byte1 a0) (a1Byte a1))))
  /-- A transaction in mode `FULL`. -/
  | full (c : Cmd) (s' : State) (hi : i.issues = some c)
      (hk : ∀ k : Kind, i ≠ k.measureRequest ∧ i ≠ k.blockingRequest ∧ i ≠ k.readRequest)
      (ha : admitCmd c (begin s) = .pass) (hs : Assembled c (begin s) s') (ht : t = (runFull c s').close false (postOf i))
  /-- A split measure. -/
  | started (k : Kind) (s' : State) (hi : i = k.measureRequest) (ha : admitCmd k.cmd (begin s) = .pass)
      (hs : Assembled k.cmd (begin s) s') (ht : t = (runWriteOnly k.cmd s').close false fun s => ret [] (inFlight k s))
  /-- A split read. -/
  | wasRead (k : Kind) (hi : i = k.readRequest) (ha : readAdmit k (begin s) = .pass)
      (ht : t = (runReadOnly k.cmd (begin s)).close true (readDone k))
  /-- A blocking read. -/
  | blocked (k : Kind) (s' : State) (hi : i = k.blockingRequest) (ha : admitCmd k.cmd (begin s) = .pass)
      (hs : Assembled k.cmd (begin s) s') (ht : t = (runBlocking k s').close true (readDone k))

theorem shape_of_fullRequest {i : Instr} {c : Cmd} {args : List Word} {need : Nat} {s t : State}
    (hi : i.issues = some c) (hv : i.operandsValid)
    (hk : ∀ k : Kind, i ≠ k.measureRequest ∧ i ≠ k.blockingRequest ∧ i ≠ k.readRequest)
    (h : fullRequest c args need (postOf i) (begin s) = .next t) : Shape i s t := by
  rcases fullRequest_next h with ⟨e, ha, ht⟩ | ⟨ha, s', hs, ht⟩
  · exact .refused e (.admitCmd c hi hv ha) (admit_refuse ha) (ht.trans (raise_begin e s))
  · exact .full c s' hi hk ha hs ht

theorem shape_of_measureStart {i : Instr} {k : Kind} {s t : State} (hi : i = k.measureRequest)
    (h : measureStart k (begin s) = .next t) : Shape i s t := by
  rcases measureStart_next h with ⟨e, ha, ht⟩ | ⟨ha, s', hs, ht⟩
  · exact .refused e (.admitCmd k.cmd (by subst hi; cases k <;> rfl) (by subst hi; cases k <;> trivial) ha) (admit_refuse ha)
      (ht.trans (raise_begin e s))
  · exact .started k s' hi ha hs ht

theorem shape_of_measureRead {i : Instr} {k : Kind} {s t : State} (hi : i = k.readRequest)
    (h : measureRead k (begin s) = .next t) : Shape i s t := by
  rcases measureRead_next h with ⟨e, ha, ht⟩ | ⟨ha, ht⟩
  · exact .refused e (.readAdmit k hi ha) (readAdmit_refuse ha) (ht.trans (raise_begin e s))
  · exact .wasRead k hi ha ht

theorem shape_of_measureBlocking {i : Instr} {k : Kind} {s t : State} (hi : i = k.blockingRequest)
    (h : measureBlocking k (begin s) = .next t) : Shape i s t := by
  rcases measureBlocking_next h with ⟨e, ha, ht⟩ | ⟨ha, s', hs, ht⟩
  · exact .refused e (.admitCmd k.cmd (by subst hi; cases k <;> rfl) (by subst hi; cases k <;> trivial) ha) (admit_refuse ha)
      (ht.trans (raise_begin e s))
  · exact .blocked k s' hi ha hs ht

/-- What a request with operands leaves where they do not pass. -/
theorem shape_of_operands {i : Instr} {s t : State} {e : Error} (hr : RefusedBy i s e) (he : e.stageCode = 0)
    (h : Host.Outcome.next (raise false e (begin s)) = (.next t : Result)) : Shape i s t :=
  .refused e hr he (by simpa [raise_begin e s] using h.symm)

/-- Whatever instruction runs, a next state has one of the shapes. -/
theorem exec_shape {i : Instr} {s t : State} (h : exec i s = .next t) : Shape i s t := by
  cases i with
  | reserved code => exact shape_of_operands (.code code rfl rfl) rfl h
  | crcCompute a0 =>
    simp only [exec, execCrcCompute] at h
    split at h
    · exact shape_of_operands (.width (Nat.not_lt.2 ((a0TooWide_iff a0).1 ‹_›)) rfl) rfl h
    · exact .crcCompute a0 rfl (by simpa using h.symm)
  | crcVerify a0 a1 =>
    simp only [exec, execCrcVerify] at h
    split at h
    · rename_i hw
      refine shape_of_operands (.width (fun hv => ?_) rfl) rfl h
      simp [a0TooWide_eq_false hv.1, a1TooWide_eq_false hv.2] at hw
    · exact .crcVerify a0 a1 rfl (by simpa using h.symm)
  | setIaqBaseline a0 a1 =>
    simp only [exec, execSetIaqBaseline] at h
    split at h
    · exact shape_of_operands (.width (Nat.not_lt.2 ((a0TooWide_iff a0).1 ‹_›)) rfl) rfl h
    · exact shape_of_fullRequest rfl (Nat.not_le.1 fun hw => ‹¬_› ((a0TooWide_iff a0).2 hw))
        (by intro k; cases k <;> simp [Kind.measureRequest, Kind.blockingRequest, Kind.readRequest]) h
  | setTvocBaseline a0 =>
    simp only [exec, execSetTvocBaseline] at h
    split at h
    · exact shape_of_operands (.width (Nat.not_lt.2 ((a0TooWide_iff a0).1 ‹_›)) rfl) rfl h
    · exact shape_of_fullRequest rfl (Nat.not_le.1 fun hw => ‹¬_› ((a0TooWide_iff a0).2 hw))
        (by intro k; cases k <;> simp [Kind.measureRequest, Kind.blockingRequest, Kind.readRequest]) h
  | setAbsoluteHumidity a0 =>
    simp only [exec, execSetAbsoluteHumidity] at h
    split at h
    · exact shape_of_fullRequest rfl ((humidityValid_iff a0).1 ‹_›)
        (by intro k; cases k <;> simp [Kind.measureRequest, Kind.blockingRequest, Kind.readRequest]) h
    · exact shape_of_operands (.range a0 rfl (fun hv => ‹¬_› ((humidityValid_iff a0).2 hv)) rfl) rfl h
  | measureIaq => exact shape_of_measureStart (k := .iaq) rfl h
  | measureTvoc => exact shape_of_measureStart (k := .tvoc) rfl h
  | measureCo2Eq => exact shape_of_measureStart (k := .co2eq) rfl h
  | measureRaw => exact shape_of_measureStart (k := .raw) rfl h
  | readIaq => exact shape_of_measureRead (k := .iaq) rfl h
  | readTvoc => exact shape_of_measureRead (k := .tvoc) rfl h
  | readCo2Eq => exact shape_of_measureRead (k := .co2eq) rfl h
  | readRaw => exact shape_of_measureRead (k := .raw) rfl h
  | measureIaqBlockingRead => exact shape_of_measureBlocking (k := .iaq) rfl h
  | measureTvocBlockingRead => exact shape_of_measureBlocking (k := .tvoc) rfl h
  | measureCo2EqBlockingRead => exact shape_of_measureBlocking (k := .co2eq) rfl h
  | measureRawBlockingRead => exact shape_of_measureBlocking (k := .raw) rfl h
  | cmdIaqInit | cmdMeasureIaq | cmdGetIaqBaseline | cmdSetIaqBaseline | cmdSetAbsoluteHumidity | cmdMeasureTest
  | cmdGetFeatureSet | cmdMeasureRaw | cmdGetTvocInceptiveBaseline | cmdSetTvocBaseline | cmdGetSerialId | probe
  | getSerialId | getFeatureSetVersion | iaqInit | getIaqBaseline | getTvocInceptiveBaseline | measureTest =>
    exact shape_of_fullRequest rfl trivial
      (by intro k; cases k <;> simp [Kind.measureRequest, Kind.blockingRequest, Kind.readRequest]) h

/-! ### Where an instruction runs -/

/-- The argument words of the frame an instruction writes. -/
def argsOf : Instr → State → List Word
  | .cmdIaqInit a0 a1, _ | .cmdMeasureIaq a0 a1, _ | .cmdGetIaqBaseline a0 a1, _ | .cmdSetIaqBaseline a0 a1, _
  | .cmdSetAbsoluteHumidity a0 a1, _ | .cmdMeasureTest a0 a1, _ | .cmdGetFeatureSet a0 a1, _ | .cmdMeasureRaw a0 a1, _
  | .cmdGetTvocInceptiveBaseline a0 a1, _ | .cmdSetTvocBaseline a0 a1, _ | .cmdGetSerialId a0 a1, _ => argWords a0 a1
  | .setIaqBaseline a0 a1, s => baselineArgs s.cfg (a0Word a0) a1
  | .setTvocBaseline a0, _ => [a0Word a0]
  | .setAbsoluteHumidity a0, s => [humidityWord s.cfg a0]
  | .probe, _ | .getSerialId, _
  | .getFeatureSetVersion, _ | .iaqInit, _ | .measureIaq, _ | .readIaq, _ | .measureIaqBlockingRead, _
  | .getIaqBaseline, _ | .getTvocInceptiveBaseline, _ | .measureTvoc, _ | .readTvoc, _
  | .measureTvocBlockingRead, _ | .measureCo2Eq, _ | .readCo2Eq, _ | .measureCo2EqBlockingRead, _ | .measureRaw, _
  | .readRaw, _ | .measureRawBlockingRead, _ | .measureTest, _ | .crcCompute _, _ | .crcVerify _ _, _
  | .reserved _, _ => []

/-- How many words of its response a request in mode `FULL` uses. -/
def needOf : Instr → Nat
  | .getSerialId => 3
  | .getIaqBaseline => 2
  | .probe | .getFeatureSetVersion | .getTvocInceptiveBaseline | .measureTest => 1
  | .cmdIaqInit _ _ | .cmdMeasureIaq _ _ | .cmdGetIaqBaseline _ _ | .cmdSetIaqBaseline _ _ | .cmdSetAbsoluteHumidity _ _
  | .cmdMeasureTest _ _ | .cmdGetFeatureSet _ _ | .cmdMeasureRaw _ _ | .cmdGetTvocInceptiveBaseline _ _ | .cmdSetTvocBaseline _ _
  | .cmdGetSerialId _ _ | .iaqInit | .measureIaq | .readIaq | .measureIaqBlockingRead | .setIaqBaseline _ _
  | .setTvocBaseline _ | .measureTvoc | .readTvoc | .measureTvocBlockingRead | .measureCo2Eq | .readCo2Eq
  | .measureCo2EqBlockingRead | .measureRaw | .readRaw | .measureRawBlockingRead | .setAbsoluteHumidity _
  | .crcCompute _ | .crcVerify _ _ | .reserved _ => 0

theorem argsOf_length {i : Instr} {c : Cmd} (hi : i.issues = some c) (s : State) : (argsOf i s).length = i.argCount := by
  cases i
  case setIaqBaseline a0 a1 =>
    cases hi
    simp only [argsOf, baselineArgs]
    split <;> rfl
  all_goals cases hi
  all_goals rfl

/-- The gates of the catalog pass where 41_catalog section 1 says so. -/
theorem admit_of_mayIssue {c : Cmd} {s : State} (h : mayIssue c s) : admitCmd c (begin s) = .pass := by
  obtain ⟨hp, hg⟩ := h
  have hfs : c.fsGate = true → fsGateCheck (begin s) = .pass := by
    intro hc
    obtain ⟨hv, ht⟩ := hg (by cases c <;> simp_all [Cmd.fsGate, gatedByFeatureSet])
    have hle : ¬fsVersion s.fsReg ≤ s.cfg.fsThreshold := by
      rw [BitVec.le_def, fsVersion, BitVec.extractLsb'_toNat]
      simpa using ht
    simp [fsGateCheck, begin, hv, hle]
  have hall : ∃ p : Phase, s.phase = p.bits ∧ p ≠ .measurementInFlight ∧ p ∈ c.allowedPhase := by
    cases c <;> simp only [phaseAllows] at hp
    case iaqInit =>
      rcases hp with h | h
      · exact ⟨.probed, h, by decide, by decide⟩
      · exact ⟨.iaqInitialized, h, by decide, by decide⟩
    case measureTest | getFeatureSet | getSerialId =>
      rcases hp with h | h | h
      · exact ⟨.unprobed, h, by decide, by decide⟩
      · exact ⟨.probed, h, by decide, by decide⟩
      · exact ⟨.iaqInitialized, h, by decide, by decide⟩
    all_goals exact ⟨.iaqInitialized, hp, by decide, by decide⟩
  obtain ⟨p, h1, h2, h3⟩ := hall
  have hr : readPhase (begin s) = .ok p := readPhase_of_bits h1
  unfold admitCmd
  simp only [hr, h2, if_false, Catalog.lookup, h3, not_true]
  by_cases hc : c.fsGate = true
  · simp [hc, hfs hc]
  · simp [hc]

/-- An instruction in mode `FULL` that is admitted, with the argument words its catalog entry asks for, runs. -/
theorem exec_full {i : Instr} {c : Cmd} {s : State} (hi : i.issues = some c)
    (hk : ∀ k : Kind, i ≠ k.measureRequest ∧ i ≠ k.blockingRequest) (hv : i.operandsValid) (hm : mayIssue c s)
    (ha : (s.cfg.catalog.entry c).nArg.val = i.argCount) :
    ∃ s', Assembled c (begin s) s' ∧ s'.txbuf = frameOf (s.cfg.catalog.entry c).opcode (argsOf i s) ∧
      exec i s = settle (needOf i) c false (postOf i) s' (runFull c s') := by
  have hp := admit_of_mayIssue hm
  have hl : ((begin s).cfg.catalog.entry c).nArg.val = (argsOf i s).length := by
    rw [argsOf_length hi]
    exact ha
  obtain ⟨s', h1, h2, h3⟩ := fullRequest_pass (need := needOf i) (k := postOf i) hp hl
  refine ⟨s', h1, h2, h3 ▸ ?_⟩
  cases i
  case setIaqBaseline a0 a1 =>
    cases hi
    simp [exec, execSetIaqBaseline, a0TooWide_eq_false hv]
    rfl
  case setTvocBaseline a0 =>
    cases hi
    simp [exec, execSetTvocBaseline, a0TooWide_eq_false hv]
    rfl
  case setAbsoluteHumidity a0 =>
    cases hi
    simp [exec, execSetAbsoluteHumidity, (humidityValid_iff a0).2 hv]
    rfl
  case measureIaq => exact absurd rfl (hk .iaq).1
  case measureTvoc => exact absurd rfl (hk .tvoc).1
  case measureCo2Eq => exact absurd rfl (hk .co2eq).1
  case measureRaw => exact absurd rfl (hk .raw).1
  case measureIaqBlockingRead => exact absurd rfl (hk .iaq).2
  case measureTvocBlockingRead => exact absurd rfl (hk .tvoc).2
  case measureCo2EqBlockingRead => exact absurd rfl (hk .co2eq).2
  case measureRawBlockingRead => exact absurd rfl (hk .raw).2
  all_goals cases hi
  all_goals rfl

/-- A split measure runs in `IAQInitialized`. -/
theorem exec_start {k : Kind} {s : State} (hp : s.phase = 2) (ha : (s.cfg.catalog.entry k.cmd).nArg.val = 0) :
    ∃ s', Assembled k.cmd (begin s) s' ∧ s'.txbuf = frameOf (s.cfg.catalog.entry k.cmd).opcode [] ∧
      exec k.measureRequest s = .next ((runWriteOnly k.cmd s').close false fun s => ret [] (inFlight k s)) := by
  have hm : mayIssue k.cmd s := by cases k <;> exact ⟨hp, by simp [gatedByFeatureSet, Kind.cmd]⟩
  obtain ⟨s', h1, h2, h3⟩ := measureStart_pass (admit_of_mayIssue hm) ha
  exact ⟨s', h1, h2, h3 ▸ by cases k <;> rfl⟩

/-- A blocking read runs in `IAQInitialized`. -/
theorem exec_blocking {k : Kind} {s : State} (hp : s.phase = 2) (ha : (s.cfg.catalog.entry k.cmd).nArg.val = 0) :
    ∃ s', Assembled k.cmd (begin s) s' ∧ s'.txbuf = frameOf (s.cfg.catalog.entry k.cmd).opcode [] ∧
      exec k.blockingRequest s = settle 2 k.cmd true (readDone k) s' (runBlocking k s') := by
  have hm : mayIssue k.cmd s := by cases k <;> exact ⟨hp, by simp [gatedByFeatureSet, Kind.cmd]⟩
  obtain ⟨s', h1, h2, h3⟩ := measureBlocking_pass (admit_of_mayIssue hm) ha
  exact ⟨s', h1, h2, h3 ▸ by cases k <;> rfl⟩

/-- A split read of the kind in flight runs once the wait is over. -/
theorem exec_read {k : Kind} {s : State} (hp : s.phase = 3) (hk : s.kind = k) (hw : waitElapsed s = true) :
    exec k.readRequest s = settle 2 k.cmd true (readDone k) (begin s) (runReadOnly k.cmd (begin s)) := by
  have ha : readAdmit k (begin s) = .pass := by
    have hw' : waitElapsed (begin s) = true := hw
    have hk' : (begin s).kind = k := hk
    have hr : readPhase (begin s) = .ok .measurementInFlight := readPhase_of_bits hp
    simp [readAdmit, hr, earlyReadCheck, hk', hw']
  rw [← measureRead_pass ha]
  cases k <;> rfl

end Sys2Proof.Machine
end

