-- ==== Sys2Proof/Laws/Flags.lean ====
section
/-! SUPPORT. What the word that a raise writes to STATUS holds (spec 60_exceptions R170). -/

namespace Sys2Proof.Machine

/-- A statement about all errors is one about the eleven kinds of them, the stages and the word indices written out. -/
theorem forall_error {P : Error → Prop} (h : ∀ f, P (.commWrite f) ∧ P (.commRead f)) (hc : ∀ i, P (.crcMismatch i))
    (ho : P .humidityRange ∧ P .argWidth ∧ P .sequencing ∧ P .wordCount ∧ P .featureSet ∧ P .illegalRequest ∧
      P .inFlight ∧ P .earlyRead) (e : Error) : P e := by
  obtain ⟨h1, h2, h3, h4, h5, h6, h7, h8⟩ := ho
  cases e <;> first | assumption | exact (h _).1 | exact (h _).2 | exact hc _

@[simp] theorem errStage_statusOf (e : Error) : errStage (statusOf e) = e.stageCode := by
  revert e
  refine forall_error (fun f => by cases f <;> decide) (by decide +kernel) (by decide)

@[simp] theorem errKind_statusOf (e : Error) : errKind (statusOf e) = e.kindCode := by
  revert e
  refine forall_error (fun f => by cases f <;> decide) (by decide +kernel) (by decide)

@[simp] theorem legalStatus_statusOf (e : Error) : legalStatus (statusOf e) = true := by
  revert e
  refine forall_error (fun f => by cases f <;> decide) (by decide +kernel) (by decide)

@[simp] theorem statusOf_ne_zero (e : Error) : statusOf e ≠ 0 := by
  intro h
  have hk := errKind_statusOf e
  rw [h] at hk
  cases e <;> exact absurd hk (show (0 : BitVec 4) ≠ _ by simp only [Error.kindCode]; decide)

@[simp] theorem legalStatus_zero : legalStatus 0 = true := by decide

end Sys2Proof.Machine
end

