-- ==== Sys2Proof/Laws/PerInstr.lean ====
section
/-! SUPPORT. The family FrameLength: what the encoding of each instruction is, and how long (spec 30_encoding R51, R54, R57),
one lemma for each constructor of Instr. -/

namespace Sys2Proof.Laws.FrameLength

open Sys2Proof

/-- A wire command is a frame of two opcode bytes and three bytes for each of its argument words, whatever the opcodes are, and
it is well formed only under catalogs whose entry has as many; any other instruction is one request triple, the same under
every catalog. -/
def Statement (i : Instr) : Prop :=
  match i.wire with
  | some (c, args) =>
    ∀ cat : Catalog, (∃ bytes, encode cat i = .frame bytes ∧ bytes.length = 2 + 3 * args.length) ∧
      (i.wellFormed cat = true → args.length = (cat.entry c).nArg.val)
  | none => ∃ op a0 a1, ∀ cat : Catalog, encode cat i = .request op a0 a1

theorem of_command (c : Cmd) (arg0 arg1 : Option Word) : Statement (c.command arg0 arg1) := by
  unfold Statement
  rw [wire_command]
  exact fun cat => ⟨⟨_, encode_command cat c arg0 arg1, frameOf_length _ _⟩,
    fun h => (CatalogEntry.fits_words (by rwa [wellFormed_command] at h)).1⟩

theorem of_request {i : Instr} {op : BitVec 8} {a0 : BitVec 32} {a1 : BitVec 16} (hw : i.wire = none)
    (he : ∀ cat : Catalog, encode cat i = .request op a0 a1) : Statement i := by
  unfold Statement
  rw [hw]
  exact ⟨op, a0, a1, he⟩

theorem cmdIaqInit (arg0 arg1 : Option Word) : Statement (.cmdIaqInit arg0 arg1) :=
  of_command .iaqInit arg0 arg1

theorem cmdMeasureIaq (arg0 arg1 : Option Word) : Statement (.cmdMeasureIaq arg0 arg1) :=
  of_command .measureIaq arg0 arg1

theorem cmdGetIaqBaseline (arg0 arg1 : Option Word) : Statement (.cmdGetIaqBaseline arg0 arg1) :=
  of_command .getIaqBaseline arg0 arg1

theorem cmdSetIaqBaseline (arg0 arg1 : Option Word) : Statement (.cmdSetIaqBaseline arg0 arg1) :=
  of_command .setIaqBaseline arg0 arg1

theorem cmdSetAbsoluteHumidity (arg0 arg1 : Option Word) : Statement (.cmdSetAbsoluteHumidity arg0 arg1) :=
  of_command .setAbsoluteHumidity arg0 arg1

theorem cmdMeasureTest (arg0 arg1 : Option Word) : Statement (.cmdMeasureTest arg0 arg1) :=
  of_command .measureTest arg0 arg1

theorem cmdGetFeatureSet (arg0 arg1 : Option Word) : Statement (.cmdGetFeatureSet arg0 arg1) :=
  of_command .getFeatureSet arg0 arg1

theorem cmdMeasureRaw (arg0 arg1 : Option Word) : Statement (.cmdMeasureRaw arg0 arg1) :=
  of_command .measureRaw arg0 arg1

theorem cmdGetTvocInceptiveBaseline (arg0 arg1 : Option Word) : Statement (.cmdGetTvocInceptiveBaseline arg0 arg1) :=
  of_command .getTvocInceptiveBaseline arg0 arg1

theorem cmdSetTvocBaseline (arg0 arg1 : Option Word) : Statement (.cmdSetTvocBaseline arg0 arg1) :=
  of_command .setTvocBaseline arg0 arg1

theorem cmdGetSerialId (arg0 arg1 : Option Word) : Statement (.cmdGetSerialId arg0 arg1) :=
  of_command .getSerialId arg0 arg1

theorem probe : Statement (.probe) := of_request rfl fun _ => rfl

theorem getSerialId : Statement (.getSerialId) := of_request rfl fun _ => rfl

theorem getFeatureSetVersion : Statement (.getFeatureSetVersion) := of_request rfl fun _ => rfl

theorem iaqInit : Statement (.iaqInit) := of_request rfl fun _ => rfl

theorem measureIaq : Statement (.measureIaq) := of_request rfl fun _ => rfl

theorem readIaq : Statement (.readIaq) := of_request rfl fun _ => rfl

theorem measureIaqBlockingRead : Statement (.measureIaqBlockingRead) := of_request rfl fun _ => rfl

theorem getIaqBaseline : Statement (.getIaqBaseline) := of_request rfl fun _ => rfl

theorem setIaqBaseline (a0 : BitVec 32) (a1 : BitVec 16) : Statement (.setIaqBaseline a0 a1) := of_request rfl fun _ => rfl

theorem getTvocInceptiveBaseline : Statement (.getTvocInceptiveBaseline) := of_request rfl fun _ => rfl

theorem setTvocBaseline (a0 : BitVec 32) : Statement (.setTvocBaseline a0) := of_request rfl fun _ => rfl

theorem measureTvoc : Statement (.measureTvoc) := of_request rfl fun _ => rfl

theorem readTvoc : Statement (.readTvoc) := of_request rfl fun _ => rfl

theorem measureTvocBlockingRead : Statement (.measureTvocBlockingRead) := of_request rfl fun _ => rfl

theorem measureCo2Eq : Statement (.measureCo2Eq) := of_request rfl fun _ => rfl

theorem readCo2Eq : Statement (.readCo2Eq) := of_request rfl fun _ => rfl

theorem measureCo2EqBlockingRead : Statement (.measureCo2EqBlockingRead) := of_request rfl fun _ => rfl

theorem measureRaw : Statement (.measureRaw) := of_request rfl fun _ => rfl

theorem readRaw : Statement (.readRaw) := of_request rfl fun _ => rfl

theorem measureRawBlockingRead : Statement (.measureRawBlockingRead) := of_request rfl fun _ => rfl

theorem measureTest : Statement (.measureTest) := of_request rfl fun _ => rfl

theorem setAbsoluteHumidity (a0 : BitVec 32) : Statement (.setAbsoluteHumidity a0) := of_request rfl fun _ => rfl

theorem crcCompute (a0 : BitVec 32) : Statement (.crcCompute a0) := of_request rfl fun _ => rfl

theorem crcVerify (a0 : BitVec 32) (a1 : BitVec 16) : Statement (.crcVerify a0 a1) := of_request rfl fun _ => rfl

theorem reserved (code : BitVec 8) : Statement (.reserved code) := of_request rfl fun _ => rfl

end Sys2Proof.Laws.FrameLength
end

