-- ==== Sys2Proof/Laws/Response.lean ====
section
/-! SUPPORT. What a good response leads to: the read path over the triples of some words, an instruction in mode `FULL` that is
acknowledged and answered, and what a return and a raise leave for the host to read. -/

namespace Sys2Proof.Machine

/-! ### Returning and raising -/

@[simp] theorem ret_status (ws : List Word) (s : State) : (ret ws s).status = 0 := rfl

@[simp] theorem ret_env (ws : List Word) (s : State) : (ret ws s).env = s.env := by
  obtain ⟨_, _, _, h⟩ := ret_eq ws s
  rw [h]

@[simp] theorem ret_session (ws : List Word) (s : State) : (ret ws s).session = s.session := by
  obtain ⟨_, _, _, h⟩ := ret_eq ws s
  rw [h]
  rfl

@[simp] theorem raise_status (isRead : Bool) (e : Error) (s : State) : (raise isRead e s).status = statusOf e := by
  rw [raise_eq]

@[simp] theorem raise_env (isRead : Bool) (e : Error) (s : State) : (raise isRead e s).env = s.env := by
  rw [raise_eq]

/-- After a raise the host reads the error, and no word. -/
theorem hostResponse_raise (isRead : Bool) (e : Error) (s : State) :
    hostResponse (raise isRead e s) = .ok { status := statusOf e, words := [], b := s.b } := by
  unfold hostResponse
  rw [raise_status, if_pos (legalStatus_statusOf e), raise_eq]
  rfl

/-- After a return the request is completed, with the words returned. -/
theorem completed_ret {ws : List Word} (h : ws.length ≤ 3) (s : State) : completed (ret ws s) ws s.session := by
  refine ⟨?_, ret_session ws s, rfl⟩
  unfold hostResponse
  rw [ret_status, if_pos legalStatus_zero]
  match ws, h with
  | [], _ => rfl
  | [_], _ => rfl
  | [_, _], _ => rfl
  | [_, _, _], _ => rfl

/-! ### The read path -/

theorem verifyTriples_triples : ∀ (ws : List Word) (i : Nat) (s : State),
    ∃ c, verifyTriples i (triples ws) s = .ok { s with crcReg := c }
  | [], _, s => ⟨s.crcReg, rfl⟩
  | w :: ws, i, s => by
    obtain ⟨c, h⟩ := verifyTriples_triples ws (i + 1) (s.setCrc (crc8 (hiByte w) (loByte w)))
    exact ⟨c, by rw [triples_cons, verifyTriples, if_pos (verify_triple w), h]; rfl⟩

@[simp] theorem wordsOf_triples (ws : List Word) : wordsOf (triples ws) = ws := by
  induction ws with
  | nil => rfl
  | cons w ws ih => rw [triples_cons, wordsOf, ih, wordOf_hiByte_loByte]

theorem nextRead_of_readAnswers {s : State} {r : ReadResult} (h : readAnswers s r) : (nextRead s).result = r := by
  unfold readAnswers at h
  unfold nextRead
  cases hr : s.env.reads with
  | nil => simp [hr] at h
  | cons a l => simpa [hr] using h

/-- A response of the right words is accepted, and written. -/
theorem receive_triples {ws : List Word} (h3 : ws.length ≤ 3) {s : State}
    (hr : (nextRead s).result = .bytes (triples ws)) :
    ∃ c, receive ws.length s =
      .ok (writeWords ws
        { s with txn := .verify, rxbuf := triples ws, crcReg := c, env := (busRead (3 * ws.length) s).env }) := by
  have htk : (triples ws).take 9 = triples ws := List.take_of_length_le (by rw [triples_length]; omega)
  obtain ⟨c, hc⟩ := verifyTriples_triples ws 0 (((busRead (3 * ws.length) s).setRxbuf (triples ws)).setTxn .verify)
  refine ⟨c, ?_⟩
  unfold receive
  rw [hr]
  simp only [triples_length, if_true]
  rw [htk]
  unfold verifyPath
  rw [State.setRxbuf_rxbuf, hc, wordsOf_triples]
  rfl

theorem writeWords_words {ws : List Word} (h3 : ws.length ≤ 3) (s : State) :
    [(writeWords ws s).word0, (writeWords ws s).word1, (writeWords ws s).word2].take ws.length = ws := by
  match ws, h3 with
  | [], _ => rfl
  | [_], _ => rfl
  | [_, _], _ => rfl
  | [_, _, _], _ => rfl

/-- The read path of a command that is answered with as many words as its catalog entry gives. -/
theorem readPath_triples {c : Cmd} {ws : List Word} {s : State} (hn : (s.cfg.catalog.entry c).nResp.val = ws.length)
    (hr : ws ≠ [] → readAnswers s (.bytes (triples ws))) :
    ∃ t, readPath c s = .ok t ∧ t.session = s.session ∧ t.pendCmd = s.pendCmd ∧ t.tIssue = s.tIssue ∧
      t.tWait = s.tWait ∧ t.env.host = s.env.host ∧ t.wcount.toNat = ws.length ∧
      [t.word0, t.word1, t.word2].take ws.length = ws ∧
      t.env.trace = s.env.trace ++
        (if triples ws = [] then []
         else [⟨s.env.now, .read, .read s.cfg.addr (triples ws).length (.bytes (triples ws))⟩]) := by
  have h3 : ws.length ≤ 3 := by have := (s.cfg.catalog.entry c).nResp.isLt; omega
  rw [readPath_def, hn]
  by_cases hz : ws = []
  · subst hz
    exact ⟨_, rfl, rfl, rfl, rfl, rfl, rfl, rfl, rfl, by simp⟩
  · have hl : ws.length ≠ 0 := by simpa using hz
    have hne : triples ws ≠ [] := fun h => hl (by
      have := congrArg List.length h
      rw [triples_length, List.length_nil] at this
      omega)
    have hrr : (nextRead (s.setTxn .read)).result = .bytes (triples ws) := nextRead_of_readAnswers (hr hz)
    obtain ⟨crc, hrc⟩ := receive_triples h3 hrr
    rw [if_neg hl, if_neg hne]
    obtain ⟨_, _, _, hw⟩ := writeWords_eq ws { (s.setTxn .read) with
      txn := .verify, rxbuf := triples ws, crcReg := crc, env := (busRead (3 * ws.length) (s.setTxn .read)).env }
    refine ⟨_, hrc, ?_, ?_, ?_, ?_, ?_, ?_, writeWords_words h3 _, ?_⟩
    all_goals rw [hw]
    all_goals first | rfl | skip
    · simp [BitVec.toNat_ofNat]; omega
    · rw [triples_length, ← hrr]; rfl

/-! ### An instruction that is acknowledged and answered -/

theorem waitPath_sleeps (s : State) :
    ∃ slept, (waitPath s).env.trace = s.env.trace ++ slept ∧ slept ≠ [] ∧
      ∀ e ∈ slept, e.isSleep = true ∧ e.txn = .wait := by
  obtain ⟨_, _, _, _, slept, h1, h2, h3⟩ := waitPath_env s
  refine ⟨slept, h1, h2, fun e he => ?_⟩
  obtain ⟨ht, ⟨u, hu⟩, -⟩ := h3 e he
  exact ⟨by simp [Event.isSleep, hu], ht⟩

/-- What assembling a frame keeps. -/
theorem Assembled.keeps {c : Cmd} {s s' : State} (h : Assembled c (begin s) s') :
    s'.env = s.env ∧ s'.cfg = s.cfg ∧ s'.session = s.session ∧ s'.txn = .write ∧ s'.pendCmd = s.pendCmd ∧
      s'.tIssue = s.tIssue ∧ s'.tWait = s.tWait := by
  rw [h.rest]
  exact ⟨rfl, rfl, rfl, rfl, rfl, rfl, rfl⟩

/-- An instruction in mode `FULL` that is admitted, acknowledged and answered with `ws` runs its exchange, keeps the session,
and hands the words to its own last lines `postOf i`. -/
theorem exec_answered {i : Instr} {c : Cmd} {s : State} {ws : List Word} (hi : i.issues = some c)
    (hk : ∀ k : Kind, i ≠ k.measureRequest ∧ i ≠ k.blockingRequest) (hv : i.operandsValid) (hm : mayIssue c s)
    (hc : countsAre s c i.argCount ws.length) (hw : writeAnswers s .ack)
    (hr : ws ≠ [] → readAnswers s (.bytes (triples ws))) (hn : needOf i ≤ ws.length) :
    ∃ t, exec i s = .next (postOf i t) ∧ t.session = s.session ∧ t.wcount.toNat = ws.length ∧
      [t.word0, t.word1, t.word2].take ws.length = ws ∧ issueRecorded s t c ∧
      exchange s t (frameOf (s.cfg.catalog.entry c).opcode (argsOf i s)) (triples ws) := by
  obtain ⟨s', ha, htx, hex⟩ := exec_full hi hk hv hm hc.1
  obtain ⟨he, hcf, hss, ht, -, -, -⟩ := ha.keeps
  have hnw : (nextWrite s').result = .ack := by rw [← hw]; simp [nextWrite, he]
  have hwe := waitPath_eq (issued c s')
  obtain ⟨w1, -, w3, -, -⟩ := waitPath_env (issued c s')
  obtain ⟨slept, w5, w6, w7⟩ := waitPath_sleeps (issued c s')
  have hcw : (waitPath (issued c s')).cfg = s.cfg := by rw [hwe]; exact hcf
  obtain ⟨t, hrp, g1, g2, g3, g4, g5, g6, g7, g8⟩ := readPath_triples (s := waitPath (issued c s')) (c := c) (ws := ws)
    (by rw [hcw]; exact hc.2) (by intro h; unfold readAnswers; rw [w3]; simp only [issued, busWrite_env, he]; exact hr h)
  have hrun : runFull c s' = .ok (t.setTxn .idle) := by
    unfold runFull
    rw [writePath_ack hnw]
    simp [Run.andThen, hrp]
  rw [hrun, settle_enough (by rw [hcf, hc.2]; exact hn)] at hex
  refine ⟨t.setTxn .idle, hex, ?_, g6, g7, ⟨?_, ?_, ?_⟩, ?_, slept, (waitPath (issued c s')).env.now, w7, w6, ?_⟩
  · have h1 : (t.setTxn .idle).session = t.session := rfl
    rw [h1, g1, ← hss, hwe]; rfl
  · rw [State.setTxn_pendCmd, g2, hwe]; rfl
  · rw [State.setTxn_tIssue, g3, hwe]; simp [issued, he, nextWrite]
  · rw [State.setTxn_tWait, g4, hwe]; simp [issued, hcf]
  · rw [State.setTxn_env, g5, w1]; simp [issued, he]
  · rw [State.setTxn_env, g8, w5, hcw]
    simp [issued, he, ht, hcf, htx, hnw]

end Sys2Proof.Machine
end

