-- ==== Sys2Proof/Tests/Slice0.lean ====
section
/-! SUPPORT. Tests, each about one decoding or one instruction, with expected values from spec/95_test_vectors.md, the catalog
of 41_catalog and the codes of 30_encoding R57; and, for every obligation with hypotheses, a witness that meets them. -/

/- One test is elaborated after the other. Side by side, each waits for the kernel on a thread of its own, and a hundred stacks
are more memory than a check allows. -/
set_option Elab.async false

namespace Sys2Proof.Tests

open Sys2Proof Sys2Proof.Machine

/-! ### Helpers -/

/-- A session in phase `p` at time 1000 that has cached the feature set 0x0022, with one acknowledged write and the answer `r`
queued. A sleep takes exactly `wait`. -/
def ready (p : BitVec 3) (r : ReadResult) (wait : Nat) : State :=
  { State.reset with
    phase := p, fsReg := 0x0022, fsValid := true
    env := { Env.reset with
      now := 1000, writes := [{ result := .ack, dt := 0 }], reads := [{ result := r, dt := 0 }], sleeps := [wait] } }

/-- The same, the write answered with `w`. -/
def writing (p : BitVec 3) (w : WriteResult) : State :=
  { ready p .nack 10000 with env := { (ready p .nack 10000).env with writes := [{ result := w, dt := 0 }] } }

/-- A measurement of `k` issued at 1000, and the time `now`, with the answer `r` queued. -/
def flying (k : Kind) (wait : BitVec 32) (now : Nat) (r : ReadResult) : State :=
  { ready 3 r 0 with
    kind := k, pendCmd := k.cmd, tIssue := 1000, tWait := wait, env := { (ready 3 r 0).env with now := now } }

/-- The state with another catalog. -/
def catalogued (cat : Catalog) (s : State) : State := { s with cfg := { s.cfg with catalog := cat } }

/-- The state with the TVOC word and the ethanol word first on the wire (`P_IAQ_MAP`, `P_RAW_MAP`, R4). -/
def mapped (s : State) : State := { s with cfg := { s.cfg with iaqTvocAt := .first, rawEthanolAt := .first } }

/-- The state with another feature-set word. -/
def withFeatureSet (w : Word) (s : State) : State := { s with fsReg := w }

/-- What a host and a bus monitor see of one instruction. -/
structure Seen where
  status : Word
  words  : List Word
  b      : Bool
  phase  : BitVec 3
  calls  : List PortCall
  deriving DecidableEq, Repr

def seen : Result → Option Seen
  | .next t =>
    match hostResponse t with
    | .ok r => some { status := r.status, words := r.words, b := r.b, phase := t.phase, calls := t.env.trace.map Event.call }
    | .error _ => none
  | .fault _ => none
  | .refused _ => none

/-- One field of the state after an instruction. -/
def field {α : Type} (f : State → α) : Result → Option α
  | .next t => some (f t)
  | .fault _ => none
  | .refused _ => none

/-- The calls of a good exchange. -/
def good (frame : List Byte) (wait : Nat) (response : List Byte) : List PortCall :=
  [.write 0x58 frame .ack, .sleep wait] ++
    (if response = [] then [] else [.read 0x58 response.length (.bytes response)])

/-! ### Well-formedness: a reserved code is reserved, a frame has the format of its catalog entry -/

/-- R60: a code below 0x18 is no reserved code. -/
theorem test_wellFormed_refuses_a_request_code : (Instr.reserved 0x17).wellFormed Catalog.default = false := by decide

theorem test_wellFormed_accepts_the_lowest_reserved_code :
    (Instr.reserved 0x18).wellFormed Catalog.default = true := by decide

/-- A catalog in which `sgp30_iaq_init` has one argument word, `sgp30_set_absolute_humidity` two and
`sgp30_set_tvoc_baseline` none: `P_NARG` is a parameter (R4, R43). -/
def otherCounts : Catalog :=
  { Catalog.default with
    iaqInit := { Catalog.default.iaqInit with nArg := 1 }
    setAbsoluteHumidity := { Catalog.default.setAbsoluteHumidity with nArg := 2 }
    setTvocBaseline := { Catalog.default.setTvocBaseline with nArg := 0 } }

/-- R51, R54: a frame whose format is not the one of its catalog entry; one refusal for each wire command. -/
theorem test_wellFormed_refuses_another_format :
    [Instr.cmdIaqInit (some 0), .cmdMeasureIaq (some 0), .cmdGetIaqBaseline (some 0) (some 0), .cmdSetIaqBaseline (some 0),
     .cmdSetAbsoluteHumidity, .cmdMeasureTest (some 0), .cmdGetFeatureSet (some 0), .cmdMeasureRaw (some 0) (some 0),
     .cmdGetTvocInceptiveBaseline (some 0), .cmdSetTvocBaseline none (some 0), .cmdGetSerialId (some 0)].all
      (fun i => !i.wellFormed Catalog.default) = true := by decide

/-- R54: the format follows `P_NARG`. -/
theorem test_wellFormed_follows_the_catalog :
    (Instr.cmdIaqInit (some 0)).wellFormed otherCounts = true ∧ Instr.cmdIaqInit.wellFormed otherCounts = false ∧
    (Instr.cmdSetAbsoluteHumidity (some 0) (some 0)).wellFormed otherCounts = true ∧
    Instr.cmdSetTvocBaseline.wellFormed otherCounts = true := by decide

/-! ### Decoding: the words of the spec -/

def rejects (bytes : List Byte) (why : Reject) : Bool :=
  match decode Catalog.default (.frame bytes) with
  | .ok _ => false
  | .error e => decide (e = why)

def decodes (e : Encoded) (i : Instr) : Bool := decide ((decode Catalog.default e).toOption = some i)

/-- R51, R80 to R90; L2-3. -/
theorem test_decode_frames_without_arguments :
    [decodes (.frame [0x20, 0x03]) .cmdIaqInit,
     decodes (.frame [0x20, 0x08]) .cmdMeasureIaq,
     decodes (.frame [0x20, 0x15]) .cmdGetIaqBaseline,
     decodes (.frame [0x20, 0x32]) .cmdMeasureTest,
     decodes (.frame [0x20, 0x2F]) .cmdGetFeatureSet,
     decodes (.frame [0x20, 0x50]) .cmdMeasureRaw,
     decodes (.frame [0x20, 0xB3]) .cmdGetTvocInceptiveBaseline,
     decodes (.frame [0x36, 0x82]) .cmdGetSerialId].all id = true := by decide +kernel

/-- R51, R83, R84, R89; L2-3. -/
theorem test_decode_frames_with_arguments :
    [decodes (.frame [0x20, 0x1E, 0x80, 0x02, 0xC0, 0x80, 0x01, 0x93]) (.cmdSetIaqBaseline (some 0x8002) (some 0x8001)),
     decodes (.frame [0x20, 0x61, 0x0B, 0x7F, 0x4D]) (.cmdSetAbsoluteHumidity (some 0x0B7F)),
     decodes (.frame [0x20, 0x77, 0x8F, 0x3C, 0x83]) (.cmdSetTvocBaseline (some 0x8F3C))].all id = true := by decide +kernel

/-- R57: codes 0x00 to 0x0B; operands that a request does not use are ignored. -/
theorem test_decode_requests_low :
    [decodes (.request 0x00 0x12345678 0x9ABC) .probe,
     decodes (.request 0x01 0x12345678 0x9ABC) .getSerialId,
     decodes (.request 0x02 0x12345678 0x9ABC) .getFeatureSetVersion,
     decodes (.request 0x03 0x12345678 0x9ABC) .iaqInit,
     decodes (.request 0x04 0x12345678 0x9ABC) .measureIaq,
     decodes (.request 0x05 0x12345678 0x9ABC) .readIaq,
     decodes (.request 0x06 0x12345678 0x9ABC) .measureIaqBlockingRead,
     decodes (.request 0x07 0x12345678 0x9ABC) .getIaqBaseline,
     decodes (.request 0x08 0x12345678 0x9ABC) (.setIaqBaseline 0x12345678 0x9ABC),
     decodes (.request 0x09 0x12345678 0x9ABC) .getTvocInceptiveBaseline,
     decodes (.request 0x0A 0x12345678 0x9ABC) (.setTvocBaseline 0x12345678),
     decodes (.request 0x0B 0x12345678 0x9ABC) .measureTvoc].all id = true := by decide +kernel

/-- R57: codes 0x0C to 0x17. -/
theorem test_decode_requests_high :
    [decodes (.request 0x0C 0x12345678 0x9ABC) .readTvoc,
     decodes (.request 0x0D 0x12345678 0x9ABC) .measureTvocBlockingRead,
     decodes (.request 0x0E 0x12345678 0x9ABC) .measureCo2Eq,
     decodes (.request 0x0F 0x12345678 0x9ABC) .readCo2Eq,
     decodes (.request 0x10 0x12345678 0x9ABC) .measureCo2EqBlockingRead,
     decodes (.request 0x11 0x12345678 0x9ABC) .measureRaw,
     decodes (.request 0x12 0x12345678 0x9ABC) .readRaw,
     decodes (.request 0x13 0x12345678 0x9ABC) .measureRawBlockingRead,
     decodes (.request 0x14 0x12345678 0x9ABC) .measureTest,
     decodes (.request 0x15 0x12345678 0x9ABC) (.setAbsoluteHumidity 0x12345678),
     decodes (.request 0x16 0x12345678 0x9ABC) (.crcCompute 0x12345678),
     decodes (.request 0x17 0x12345678 0x9ABC) (.crcVerify 0x12345678 0x9ABC)].all id = true := by decide +kernel

/-- R60. -/
theorem test_decode_reserved :
    [decodes (.request 0x18 0 0) (.reserved 0x18),
     decodes (.request 0xFF 0xFFFFFFFF 0xFFFF) (.reserved 0xFF)].all id = true := by decide +kernel

/-- R50, R31, R35: a wrong checksum, an unknown opcode, a wrong length, and half an opcode are no frames. -/
theorem test_decode_rejects :
    [rejects [0x20, 0x77, 0x8F, 0x3C, 0x84] (.badChecksum 0),
     rejects [0x20, 0x04] (.unknownOpcode 0x2004),
     rejects [0x20, 0x03, 0x00, 0x00, 0x81] (.frameLength .iaqInit),
     rejects [0x20, 0x77, 0x8F, 0x3C] (.frameLength .setTvocBaseline),
     rejects [0x20] .shortFrame].all id = true := by decide +kernel

/-- R54, R4: the length of a frame is `2 + 3 * P_NARG` for the value that the catalog gives `P_NARG`, here 1, 2 and 0. -/
theorem test_decode_follows_the_catalog :
    (decode otherCounts (.frame [0x20, 0x03, 0x80, 0x01, 0x93])).toOption = some (.cmdIaqInit (some 0x8001)) ∧
    (decode otherCounts (.frame [0x20, 0x61, 0x80, 0x02, 0xC0, 0x80, 0x01, 0x93])).toOption =
      some (.cmdSetAbsoluteHumidity (some 0x8002) (some 0x8001)) ∧
    (decode otherCounts (.frame [0x20, 0x77])).toOption = some .cmdSetTvocBaseline ∧
    (decode otherCounts (.frame [0x20, 0x03])).toOption = none := by decide +kernel

/-- The words of the opcode table, and the frames they stand for. -/
theorem test_decodeTableWord :
    decodeTableWord 16 0x2003 = some .cmdIaqInit ∧ decodeTableWord 48 0x80018002201E = some (.cmdSetIaqBaseline (some 0x8002) (some 0x8001)) ∧
    decodeTableWord 8 0x14 = some .measureTest ∧ decodeTableWord 8 0x18 = some (.reserved 0x18) := by decide +kernel

/-! ### The CRC unit: L2-1 -/

theorem test_crc8_vectors :
    crc8 0xBE 0xEF = 0x92 ∧ crc8 0x12 0x34 = 0x37 ∧ crc8 0xEA 0x60 = 0xA2 ∧ crcByte 0xFF 0xBE = 0x0C := by decide +kernel

/-! ### Instructions -/

/-- L2-6: a probe in phase 0. -/
theorem test_probe :
    seen (exec .probe (ready 0 (.bytes [0x00, 0x22, 0x65]) 10000)) =
      some { status := 0x0000, words := [], b := false, phase := 1, calls := good [0x20, 0x2F] 10000 [0x00, 0x22, 0x65] } := by decide +kernel

/-- L2-6: the phase never moves backward, and the feature set is cached again. -/
theorem test_probe_in_phase_2 :
    field (fun t => (t.phase, t.fsReg)) (exec .probe (withFeatureSet 0 (ready 2 (.bytes [0x00, 0x22, 0x65]) 10000))) =
      some (2, 0x0022) := by decide +kernel

/-- L2-6. -/
theorem test_getSerialId :
    seen (exec .getSerialId (ready 0 (.bytes [0x00, 0x00, 0x81, 0x01, 0x23, 0xA0, 0x45, 0x67, 0x53]) 500)) =
      some { status := 0x0000, words := [0x0000, 0x0123, 0x4567], b := false, phase := 0, calls := good [0x36, 0x82] 500 [0x00, 0x00, 0x81, 0x01, 0x23, 0xA0, 0x45, 0x67, 0x53] } := by decide +kernel

/-- L2-5: the third word is bad, and no word is valid. -/
theorem test_getSerialId_third_word_bad :
    seen (exec .getSerialId (ready 0 (.bytes [0x00, 0x00, 0x81, 0x01, 0x23, 0xA0, 0x45, 0x67, 0x54]) 500)) =
      some { status := 0x0A13, words := [], b := false, phase := 0, calls := good [0x36, 0x82] 500 [0x00, 0x00, 0x81, 0x01, 0x23, 0xA0, 0x45, 0x67, 0x54] } := by decide +kernel

/-- L2-6. -/
theorem test_getFeatureSetVersion :
    field (fun t => (t.status, t.wcount, t.word0, t.fsReg, t.phase)) (exec .getFeatureSetVersion (ready 1 (.bytes [0x00, 0x21, 0x36]) 10000)) =
      some (0, 1, 0x0021, 0x0021, 1) := by decide +kernel

/-- L2-6, L2-5: no read is made. -/
theorem test_iaqInit :
    seen (exec .iaqInit (ready 1 .nack 10000)) =
      some { status := 0x0000, words := [], b := false, phase := 2, calls := good [0x20, 0x03] 10000 [] } := by decide +kernel

/-- L2-6. -/
theorem test_iaqInit_unprobed :
    seen (exec .iaqInit (ready 0 .nack 10000)) =
      some { status := 0x0014, words := [], b := false, phase := 0, calls := [] } := by decide +kernel

/-- L1-1. -/
theorem test_getIaqBaseline :
    field (fun t => (t.word0, t.word1, t.baseReg, t.baseValid)) (exec .getIaqBaseline (ready 2 (.bytes [0x80, 0x01, 0x93, 0x80, 0x02, 0xC0]) 10000)) =
      some (0x8001, 0x8002, 0x80018002, true) := by decide +kernel

/-- L2-5: the lowest failing word is reported, and the baseline is not cached. -/
theorem test_getIaqBaseline_both_words_bad :
    field (fun t => (t.status, t.wcount, t.baseValid)) (exec .getIaqBaseline (ready 2 (.bytes [0x80, 0x01, 0x92, 0x80, 0x02, 0xC1]) 10000)) =
      some (0x0813, 0, false) := by decide +kernel

/-- L1-1: TVOC first on the wire. -/
theorem test_setIaqBaseline :
    seen (exec (.setIaqBaseline 0x00008001 0x8002) (ready 2 .nack 10000)) =
      some { status := 0x0000, words := [], b := false, phase := 2, calls := good [0x20, 0x1E, 0x80, 0x02, 0xC0, 0x80, 0x01, 0x93] 10000 [] } := by decide +kernel

/-- L2-6: before the phase check. -/
theorem test_setIaqBaseline_too_wide :
    seen (exec (.setIaqBaseline 0x00018001 0x8002) (ready 0 .nack 10000)) =
      some { status := 0x0021, words := [], b := false, phase := 0, calls := [] } := by decide +kernel

/-- L2-6: just above the threshold. -/
theorem test_getTvocInceptiveBaseline :
    seen (exec .getTvocInceptiveBaseline (withFeatureSet 0x0021 (ready 2 (.bytes [0x9D, 0x3E, 0x56]) 10000))) =
      some { status := 0x0000, words := [0x9D3E], b := false, phase := 2, calls := good [0x20, 0xB3] 10000 [0x9D, 0x3E, 0x56] } := by decide +kernel

/-- L2-6: at the threshold. -/
theorem test_getTvocInceptiveBaseline_gated :
    seen (exec .getTvocInceptiveBaseline (withFeatureSet 0x0020 (ready 2 .nack 10000))) =
      some { status := 0x0034, words := [], b := false, phase := 2, calls := [] } := by decide +kernel

/-- L2-6: only bits 7 to 0 are the version. -/
theorem test_setTvocBaseline :
    seen (exec (.setTvocBaseline 0x00008F3C) (withFeatureSet 0x1022 (ready 2 .nack 10000))) =
      some { status := 0x0000, words := [], b := false, phase := 2, calls := good [0x20, 0x77, 0x8F, 0x3C, 0x83] 10000 [] } := by decide +kernel

/-- L2-6, L2-8: the phase check comes before the gate. -/
theorem test_setTvocBaseline_phase_before_gate :
    seen (exec (.setTvocBaseline 0x00008F3C) (withFeatureSet 0x0020 (ready 1 .nack 10000))) =
      some { status := 0x0014, words := [], b := false, phase := 1, calls := [] } := by decide +kernel

/-- L1-3, L2-7: a write, no wait. -/
theorem test_measureIaq :
    field (fun t => (t.phase, t.kind, t.pendCmd, t.tIssue, t.tWait)) (exec .measureIaq (ready 2 .nack 12000)) =
      some (3, .iaq, .measureIaq, 1000, 12000) := by decide +kernel

/-- L1-3, L2-7: at the instant the wait is over. -/
theorem test_readIaq :
    seen (exec .readIaq (flying .iaq 12000 13000 (.bytes [0x01, 0x90, 0x4C, 0x00, 0x00, 0x81]))) =
      some { status := 0x0000, words := [0x0000, 0x0190], b := false, phase := 2, calls := [.read 0x58 6 (.bytes [0x01, 0x90, 0x4C, 0x00, 0x00, 0x81])] } := by decide +kernel

/-- L1-6, L2-7. -/
theorem test_measureIaqBlockingRead :
    seen (exec .measureIaqBlockingRead (ready 2 (.bytes [0x01, 0x90, 0x4C, 0x00, 0x00, 0x81]) 12000)) =
      some { status := 0x0000, words := [0x0000, 0x0190], b := false, phase := 2, calls := good [0x20, 0x08] 12000 [0x01, 0x90, 0x4C, 0x00, 0x00, 0x81] } := by decide +kernel

/-- L1-3, L2-7: a write, no wait. -/
theorem test_measureTvoc :
    field (fun t => (t.phase, t.kind, t.pendCmd, t.tIssue, t.tWait)) (exec .measureTvoc (ready 2 .nack 12000)) =
      some (3, .tvoc, .measureIaq, 1000, 12000) := by decide +kernel

/-- L1-3, L2-7: at the instant the wait is over. -/
theorem test_readTvoc :
    seen (exec .readTvoc (flying .tvoc 12000 13000 (.bytes [0x01, 0x90, 0x4C, 0x00, 0x22, 0x65]))) =
      some { status := 0x0000, words := [0x0022], b := false, phase := 2, calls := [.read 0x58 6 (.bytes [0x01, 0x90, 0x4C, 0x00, 0x22, 0x65])] } := by decide +kernel

/-- L1-6, L2-7. -/
theorem test_measureTvocBlockingRead :
    seen (exec .measureTvocBlockingRead (ready 2 (.bytes [0x01, 0x90, 0x4C, 0x00, 0x22, 0x65]) 12000)) =
      some { status := 0x0000, words := [0x0022], b := false, phase := 2, calls := good [0x20, 0x08] 12000 [0x01, 0x90, 0x4C, 0x00, 0x22, 0x65] } := by decide +kernel

/-- L1-3, L2-7: a write, no wait. -/
theorem test_measureCo2Eq :
    field (fun t => (t.phase, t.kind, t.pendCmd, t.tIssue, t.tWait)) (exec .measureCo2Eq (ready 2 .nack 12000)) =
      some (3, .co2eq, .measureIaq, 1000, 12000) := by decide +kernel

/-- L1-3, L2-7: at the instant the wait is over. -/
theorem test_readCo2Eq :
    seen (exec .readCo2Eq (flying .co2eq 12000 13000 (.bytes [0x01, 0x90, 0x4C, 0x00, 0x22, 0x65]))) =
      some { status := 0x0000, words := [0x0190], b := false, phase := 2, calls := [.read 0x58 6 (.bytes [0x01, 0x90, 0x4C, 0x00, 0x22, 0x65])] } := by decide +kernel

/-- L1-6, L2-7. -/
theorem test_measureCo2EqBlockingRead :
    seen (exec .measureCo2EqBlockingRead (ready 2 (.bytes [0x01, 0x90, 0x4C, 0x00, 0x22, 0x65]) 12000)) =
      some { status := 0x0000, words := [0x0190], b := false, phase := 2, calls := good [0x20, 0x08] 12000 [0x01, 0x90, 0x4C, 0x00, 0x22, 0x65] } := by decide +kernel

/-- L1-3, L2-7: a write, no wait. -/
theorem test_measureRaw :
    field (fun t => (t.phase, t.kind, t.pendCmd, t.tIssue, t.tWait)) (exec .measureRaw (ready 2 .nack 25000)) =
      some (3, .raw, .measureRaw, 1000, 25000) := by decide +kernel

/-- L1-3, L2-7: at the instant the wait is over. -/
theorem test_readRaw :
    seen (exec .readRaw (flying .raw 25000 26000 (.bytes [0x9C, 0x40, 0x45, 0x4E, 0x20, 0xE3]))) =
      some { status := 0x0000, words := [0x4E20, 0x9C40], b := false, phase := 2, calls := [.read 0x58 6 (.bytes [0x9C, 0x40, 0x45, 0x4E, 0x20, 0xE3])] } := by decide +kernel

/-- L1-6, L2-7. -/
theorem test_measureRawBlockingRead :
    seen (exec .measureRawBlockingRead (ready 2 (.bytes [0x9C, 0x40, 0x45, 0x4E, 0x20, 0xE3]) 25000)) =
      some { status := 0x0000, words := [0x4E20, 0x9C40], b := false, phase := 2, calls := good [0x20, 0x50] 25000 [0x9C, 0x40, 0x45, 0x4E, 0x20, 0xE3] } := by decide +kernel

/-- L2-7: one microsecond early, still in flight. -/
theorem test_readRaw_early :
    seen (exec .readRaw (flying .raw 25000 25999 (.bytes [0x9C, 0x40, 0x45, 0x4E, 0x20, 0xE3]))) =
      some { status := 0x0015, words := [], b := false, phase := 3, calls := [] } := by decide +kernel

/-- L2-7, R156: a bad CO2eq word ends the TVOC measurement. -/
theorem test_readTvoc_other_word_bad :
    seen (exec .readTvoc (flying .tvoc 12000 13000 (.bytes [0x01, 0x90, 0x4D, 0x00, 0x22, 0x65]))) =
      some { status := 0x0813, words := [], b := false, phase := 2, calls := [.read 0x58 6 (.bytes [0x01, 0x90, 0x4D, 0x00, 0x22, 0x65])] } := by decide +kernel

/-- L2-7. -/
theorem test_readCo2Eq_not_in_flight :
    seen (exec .readCo2Eq (ready 2 .nack 0)) =
      some { status := 0x0014, words := [], b := false, phase := 2, calls := [] } := by decide +kernel

/-- L2-7. -/
theorem test_readIaq_other_kind :
    seen (exec .readIaq (flying .raw 25000 26000 .nack)) =
      some { status := 0x0054, words := [], b := false, phase := 3, calls := [] } := by decide +kernel

/-- L2-7. -/
theorem test_measureIaq_in_flight :
    seen (exec .measureIaq (flying .iaq 12000 13000 .nack)) =
      some { status := 0x0054, words := [], b := false, phase := 3, calls := [] } := by decide +kernel

/-- L2-7. -/
theorem test_measureCo2EqBlockingRead_nack :
    field (fun t => (t.status, t.phase)) (exec .measureCo2EqBlockingRead (writing 2 .nack)) =
      some (0x0412, 2) := by decide +kernel

/-- R178: a blocking read that fails in its read path ends in phase 2, and `KIND` holds what it held before. -/
theorem test_measureRawBlockingRead_read_fails :
    field (fun t => (t.status, t.phase, t.kind)) (exec .measureRawBlockingRead ((ready 2 .ioerr 25000).setKind .co2eq)) =
      some (0x0822, 2, .co2eq) := by decide +kernel

/-- R141: with the TVOC word first on the wire, the pair of `read_iaq` is the response in wire order. -/
theorem test_readIaq_other_map :
    field (fun t => (t.status, t.word0, t.word1)) (exec .readIaq (mapped (flying .iaq 12000 13000 (.bytes [0x01, 0x90, 0x4C, 0x00, 0x22, 0x65])))) =
      some (0, 0x0190, 0x0022) := by decide +kernel

/-- R141: with the ethanol word first on the wire, the same of `measure_raw_blocking_read`. -/
theorem test_measureRawBlockingRead_other_map :
    field (fun t => (t.status, t.word0, t.word1)) (exec .measureRawBlockingRead (mapped (ready 2 (.bytes [0x9C, 0x40, 0x45, 0x4E, 0x20, 0xE3]) 25000))) =
      some (0, 0x9C40, 0x4E20) := by decide +kernel

/-- L1-4: the sentinel. -/
theorem test_measureTest :
    seen (exec .measureTest (ready 0 (.bytes [0xD4, 0x00, 0xC6]) 220000)) =
      some { status := 0x0000, words := [0xD400], b := true, phase := 0, calls := good [0x20, 0x32] 220000 [0xD4, 0x00, 0xC6] } := by decide +kernel

/-- L1-4: non-zero, but not the sentinel. -/
theorem test_measureTest_not_sentinel :
    field (fun t => (t.status, t.word0, t.b)) (exec .measureTest (ready 0 (.bytes [0xD4, 0x01, 0xF7]) 220000)) =
      some (0, 0xD401, false) := by decide +kernel

/-- L2-4. -/
theorem test_setAbsoluteHumidity :
    seen (exec (.setAbsoluteHumidity 0x00002CEC) (ready 2 .nack 10000)) =
      some { status := 0x0000, words := [], b := false, phase := 2, calls := good [0x20, 0x61, 0x0B, 0x7F, 0x4D] 10000 [] } := by decide +kernel

/-- L2-4, L2-8: -1, in flight. -/
theorem test_setAbsoluteHumidity_negative :
    seen (exec (.setAbsoluteHumidity 0xFFFFFFFF) (flying .iaq 12000 13000 .nack)) =
      some { status := 0x0011, words := [], b := false, phase := 3, calls := [] } := by decide +kernel

/-- L2-4. -/
theorem test_humidityWord_vectors :
    ([3, 4, 1000, 3906, 3907, 128000, 255999, 256000].map fun v => humidityWord Params.default (BitVec.ofNat 32 v)) =
      [0x0000, 0x0001, 0x00FF, 0x03E7, 0x03E8, 0x7FFF, 0xFFFE, 0xFFFF] := by decide +kernel

/-- L2-2: in flight too. -/
theorem test_crcCompute :
    seen (exec (.crcCompute 0x00009C40) (flying .raw 25000 1000 .nack)) =
      some { status := 0x0000, words := [0x0045], b := false, phase := 3, calls := [] } := by decide +kernel

/-- L2-2. -/
theorem test_crcCompute_too_wide :
    seen (exec (.crcCompute 0x0001BEEF) (ready 2 .nack 0)) =
      some { status := 0x0021, words := [], b := false, phase := 2, calls := [] } := by decide +kernel

/-- L2-2. -/
theorem test_crcVerify :
    seen (exec (.crcVerify 0x00008001 0x0093) (ready 0 .nack 0)) =
      some { status := 0x0000, words := [], b := true, phase := 0, calls := [] } := by decide +kernel

/-- L2-2: a mismatch is a result. -/
theorem test_crcVerify_mismatch :
    seen (exec (.crcVerify 0x00008001 0x0092) (ready 0 .nack 0)) =
      some { status := 0x0000, words := [], b := false, phase := 0, calls := [] } := by decide +kernel

/-- L2-8. -/
theorem test_reserved :
    seen (exec (.reserved 0x18) (flying .iaq 12000 1000 .nack)) =
      some { status := 0x0044, words := [], b := false, phase := 3, calls := [] } := by decide +kernel

/-- R80. -/
theorem test_cmdIaqInit :
    seen (exec .cmdIaqInit (ready 1 .nack 10000)) =
      some { status := 0x0000, words := [], b := false, phase := 1, calls := good [0x20, 0x03] 10000 [] } := by decide +kernel

/-- R81: the words in wire order. -/
theorem test_cmdMeasureIaq :
    seen (exec .cmdMeasureIaq (ready 2 (.bytes [0x01, 0x90, 0x4C, 0x00, 0x22, 0x65]) 12000)) =
      some { status := 0x0000, words := [0x0190, 0x0022], b := false, phase := 2, calls := good [0x20, 0x08] 12000 [0x01, 0x90, 0x4C, 0x00, 0x22, 0x65] } := by decide +kernel

/-- R82: nothing is cached. -/
theorem test_cmdGetIaqBaseline :
    field (fun t => (t.word0, t.word1, t.baseValid)) (exec .cmdGetIaqBaseline (ready 2 (.bytes [0x80, 0x01, 0x93, 0x80, 0x02, 0xC0]) 10000)) =
      some (0x8001, 0x8002, false) := by decide +kernel

/-- R83, L2-3: the words in wire order. -/
theorem test_cmdSetIaqBaseline :
    seen (exec (.cmdSetIaqBaseline (some 0x8002) (some 0x8001)) (ready 2 .nack 10000)) =
      some { status := 0x0000, words := [], b := false, phase := 2, calls := good [0x20, 0x1E, 0x80, 0x02, 0xC0, 0x80, 0x01, 0x93] 10000 [] } := by decide +kernel

/-- R84: the word itself. -/
theorem test_cmdSetAbsoluteHumidity :
    seen (exec (.cmdSetAbsoluteHumidity (some 0xFFFF)) (ready 2 .nack 10000)) =
      some { status := 0x0000, words := [], b := false, phase := 2, calls := good [0x20, 0x61, 0xFF, 0xFF, 0xAC] 10000 [] } := by decide +kernel

/-- R85: B is a request's. -/
theorem test_cmdMeasureTest :
    seen (exec .cmdMeasureTest (ready 0 (.bytes [0xD4, 0x00, 0xC6]) 220000)) =
      some { status := 0x0000, words := [0xD400], b := false, phase := 0, calls := good [0x20, 0x32] 220000 [0xD4, 0x00, 0xC6] } := by decide +kernel

/-- R86. -/
theorem test_cmdGetFeatureSet :
    seen (exec .cmdGetFeatureSet (ready 0 (.bytes [0x00, 0x22, 0x65]) 10000)) =
      some { status := 0x0000, words := [0x0022], b := false, phase := 0, calls := good [0x20, 0x2F] 10000 [0x00, 0x22, 0x65] } := by decide +kernel

/-- R87: the words in wire order. -/
theorem test_cmdMeasureRaw :
    seen (exec .cmdMeasureRaw (ready 2 (.bytes [0x9C, 0x40, 0x45, 0x4E, 0x20, 0xE3]) 25000)) =
      some { status := 0x0000, words := [0x9C40, 0x4E20], b := false, phase := 2, calls := good [0x20, 0x50] 25000 [0x9C, 0x40, 0x45, 0x4E, 0x20, 0xE3] } := by decide +kernel

/-- R88. -/
theorem test_cmdGetTvocInceptiveBaseline :
    seen (exec .cmdGetTvocInceptiveBaseline (ready 2 (.bytes [0x9D, 0x3E, 0x56]) 10000)) =
      some { status := 0x0000, words := [0x9D3E], b := false, phase := 2, calls := good [0x20, 0xB3] 10000 [0x9D, 0x3E, 0x56] } := by decide +kernel

/-- R89. -/
theorem test_cmdSetTvocBaseline :
    seen (exec (.cmdSetTvocBaseline (some 0x8F3C)) (ready 2 .nack 10000)) =
      some { status := 0x0000, words := [], b := false, phase := 2, calls := good [0x20, 0x77, 0x8F, 0x3C, 0x83] 10000 [] } := by decide +kernel

/-- R90. -/
theorem test_cmdGetSerialId :
    seen (exec .cmdGetSerialId (ready 0 (.bytes [0x00, 0x00, 0x81, 0x01, 0x23, 0xA0, 0x45, 0x67, 0x53]) 500)) =
      some { status := 0x0000, words := [0x0000, 0x0123, 0x4567], b := false, phase := 0, calls := good [0x36, 0x82] 500 [0x00, 0x00, 0x81, 0x01, 0x23, 0xA0, 0x45, 0x67, 0x53] } := by decide +kernel

/-! ### The protocol engine: L2-5, L2-8 -/

/-- L2-5. -/
theorem test_write_ioerr :
    seen (exec .getIaqBaseline (writing 2 .ioerr)) =
      some { status := 0x0422, words := [], b := false, phase := 2, calls := [.write 0x58 [0x20, 0x15] .ioerr] } := by decide +kernel

/-- L2-5. -/
theorem test_read_ioerr :
    field State.status (exec .getIaqBaseline (ready 2 .ioerr 10000)) =
      some 0x0822 := by decide +kernel

/-- L2-5: no triple is verified. -/
theorem test_read_short :
    field State.status (exec .getIaqBaseline (ready 2 (.bytes [0x80, 0x01, 0x92, 0x80, 0x02]) 10000)) =
      some 0x0824 := by decide +kernel

/-- L2-5. -/
theorem test_read_long :
    field State.status (exec .getIaqBaseline (ready 2 (.bytes [0x80, 0x01, 0x93, 0x80, 0x02, 0xC0, 0x00]) 10000)) =
      some 0x0824 := by decide +kernel

/-- R198: a sleep that returns 4000 early is followed by a sleep of what is left. -/
theorem test_early_return_sleeps_again :
    field (fun t => t.env.trace.map Event.call) (exec .iaqInit { ready 1 .nack 0 with env := { (ready 1 .nack 0).env with sleeps := [6000, 4000] } }) =
      some [.write 0x58 [0x20, 0x03] .ack, .sleep 10000, .sleep 4000] := by decide +kernel

/-- R6: the item is taken, after the gap. -/
theorem test_step_takes_the_item :
    field (fun t => (t.env.host.length, t.env.now, t.status)) (step { State.reset with env := { Env.reset with host := [{ gap := 7, item := .encoded (.request 0x18 0 0) }] } }) =
      some (0, 7, 0x0044) := by decide +kernel

/-- R190. -/
theorem test_new_session :
    field (fun t => (t.phase, t.fsValid, t.env.now, t.env.host.length)) (step { ready 2 .nack 0 with env := { (ready 2 .nack 0).env with host := [{ gap := 5, item := .newSession }] } }) =
      some (0, false, 1005, 0) := by decide +kernel

/-! ### Witnesses: each obligation's hypotheses, met together -/

/-- An outcome with a field is a next state. -/
theorem next_of_field {α : Type} {f : State → α} {r : Result} {v : α} (h : field f r = some v) :
    ∃ t, r = .next t ∧ f t = v := by
  cases r with
  | next t => exact ⟨t, rfl, by simpa [field] using h⟩
  | fault _ => cases h
  | refused _ => cases h

/-- The state with one item at the host port. -/
def presented (item : Presented) (s : State) : State := { s with env := { s.env with host := [{ gap := 3, item := item }] } }

theorem witness_DecodeEncodeRoundTrip :
    Catalog.default.opcodesDistinct = true ∧ (Instr.crcVerify 0xFFFFFFFF 0xFFFF).wellFormed Catalog.default = true ∧
    (Instr.reserved 0x18).wellFormed Catalog.default = true ∧
    (Instr.cmdSetIaqBaseline (some 0) (some 0xFFFF)).wellFormed Catalog.default = true ∧
    otherCounts.opcodesDistinct = true ∧ (Instr.cmdIaqInit (some 0xFFFF)).wellFormed otherCounts = true := by decide +kernel

theorem witness_AcceptedFrameReencodes : decode Catalog.default (.frame [0x36, 0x82]) = .ok .cmdGetSerialId := rfl

/-- `WrittenFramesDecode`: under the default catalog, and under one with another `P_NARG`. -/
theorem witness_WrittenFramesDecode :
    (ready 2 .nack 10000).cfg.catalog.opcodesDistinct = true ∧ otherCounts.opcodesDistinct = true ∧
    (∃ t, exec (.setTvocBaseline 0x8F3C) (ready 2 .nack 10000) = .next t ∧
      ((newEvents (ready 2 .nack 10000) t).map Event.call)[0]? = some (.write 0x58 [0x20, 0x77, 0x8F, 0x3C, 0x83] .ack)) ∧
    (∃ t, exec (.setTvocBaseline 0x8F3C) (catalogued otherCounts (ready 2 .nack 10000)) = .next t ∧
      ((newEvents (catalogued otherCounts (ready 2 .nack 10000)) t).map Event.call)[0]? =
        some (.write 0x58 [0x20, 0x77] .ack)) :=
  ⟨by decide +kernel, by decide +kernel,
   next_of_field (f := fun t => ((newEvents (ready 2 .nack 10000) t).map Event.call)[0]?) (by decide +kernel),
   next_of_field (f := fun t => ((newEvents (catalogued otherCounts (ready 2 .nack 10000)) t).map Event.call)[0]?)
     (by decide +kernel)⟩

theorem witness_DecodedInstructionIsWellFormed : decode Catalog.default (.request 0x18 0 0) = .ok (.reserved 0x18) := rfl

theorem witness_StepRunsDecodedInstruction :
    (presented (.encoded (.request 0x16 5 0)) State.reset).txn = .idle ∧
    (presented (.encoded (.request 0x16 5 0)) State.reset).env.host = [{ gap := 3, item := .encoded (.request 0x16 5 0) }] ∧
    decode (presented (.encoded (.request 0x16 5 0)) State.reset).cfg.catalog (.request 0x16 5 0) = .ok (.crcCompute 5) :=
  ⟨rfl, rfl, rfl⟩

theorem witness_StepWithoutInstruction :
    (State.reset.setTxn .wait).txn ≠ .idle ∧ State.reset.env.host = [] ∧
    (presented (.encoded (.frame [0x20])) State.reset).txn = .idle ∧
    (presented (.encoded (.frame [0x20])) State.reset).env.host = [{ gap := 3, item := .encoded (.frame [0x20]) }] ∧
    decode (presented (.encoded (.frame [0x20])) State.reset).cfg.catalog (.frame [0x20]) = .error .shortFrame :=
  ⟨by decide, rfl, rfl, rfl, rfl⟩

theorem witness_CrcComputeReturnsChecksum :
    (0x0000FFFF : BitVec 32).toNat < 2 ^ 16 ∧ 2 ^ 16 ≤ (0x00010000 : BitVec 32).toNat := by decide

theorem witness_CrcVerifyReturnsMatch :
    ((0x0000FFFF : BitVec 32).toNat < 2 ^ 16 ∧ (0x00FF : BitVec 16).toNat < 2 ^ 8) ∧
    (2 ^ 16 ≤ (0x00010000 : BitVec 32).toNat ∨ 2 ^ 8 ≤ (0x00FF : BitVec 16).toNat) ∧
    (2 ^ 16 ≤ (0x0000FFFF : BitVec 32).toNat ∨ 2 ^ 8 ≤ (0x0100 : BitVec 16).toNat) := by decide

theorem witness_SingleByteErrorIsDetected :
    verify 0x80 0x01 0x93 = true ∧ (0x81 : Byte) ≠ 0x80 ∧ (0x00 : Byte) ≠ 0x01 ∧ (0x92 : Byte) ≠ 0x93 := by
  decide +kernel

theorem witness_ReservedCodeIsIllegalRequest :
    0x18 ≤ (0x18 : BitVec 8).toNat ∧ 0x18 ≤ (0xFF : BitVec 8).toNat := by decide

theorem witness_OverwideOperandIsRefused :
    2 ^ 16 ≤ (0x00010000 : BitVec 32).toNat ∧ 2 ^ 8 ≤ (0x0100 : BitVec 16).toNat ∧
    2 ^ 31 ≤ (0x80000000 : BitVec 32).toNat := by decide

theorem witness_HumidityRangeIsValidated :
    ¬(0 ≤ (0x0003E801 : BitVec 32).toInt ∧ (0x0003E801 : BitVec 32).toInt ≤ 256000) ∧
    ¬(0 ≤ (0xFFFFFFFF : BitVec 32).toInt ∧ (0xFFFFFFFF : BitVec 32).toInt ≤ 256000) ∧
    (0 ≤ (0 : BitVec 32).toInt ∧ (0 : BitVec 32).toInt ≤ 256000) ∧
    (0 ≤ (0x0003E800 : BitVec 32).toInt ∧ (0x0003E800 : BitVec 32).toInt ≤ 256000) ∧
    ∃ t, exec (.setAbsoluteHumidity 0x0003E800) (ready 2 .nack 10000) = .next t ∧ t.status = 0 :=
  ⟨by decide, by decide, by decide, by decide, next_of_field (f := State.status) (by decide +kernel)⟩

theorem witness_InFlightGuard :
    (flying .raw 25000 1000 .nack).phase = 3 ∧ Instr.measureIaq.issues = some .measureIaq ∧ Instr.measureIaq.operandsValid ∧
    Kind.iaq ≠ (flying .raw 25000 1000 .nack).kind ∧ (0x0000FFFF : BitVec 32).toNat < 2 ^ 16 ∧
    (0x00FF : BitVec 16).toNat < 2 ^ 8 ∧
    ((ready 4 .nack 0).phase.toNat ≤ 4 ∧ (ready 4 .nack 0).phase ≠ 3) ∧
    ((ready 2 .nack 0).phase.toNat ≤ 4 ∧ (ready 2 .nack 0).phase ≠ 3) :=
  ⟨rfl, rfl, trivial, by decide, by decide, by decide, by decide, by decide⟩

theorem witness_PhaseGateRefuses :
    (Instr.iaqInit.issues = some .iaqInit ∧ Instr.iaqInit.operandsValid ∧ (ready 0 .nack 0).phase.toNat ≤ 4 ∧
      ¬phaseAllows .iaqInit (ready 0 .nack 0).phase) ∧
    (Instr.measureTest.issues = some .measureTest ∧ Instr.measureTest.operandsValid ∧ (ready 3 .nack 0).phase.toNat ≤ 4 ∧
      ¬phaseAllows .measureTest (ready 3 .nack 0).phase) ∧
    (Instr.getIaqBaseline.issues = some .getIaqBaseline ∧ Instr.getIaqBaseline.operandsValid ∧
      (ready 4 .nack 0).phase.toNat ≤ 4 ∧ ¬phaseAllows .getIaqBaseline (ready 4 .nack 0).phase) :=
  ⟨⟨rfl, trivial, by decide, by simp [phaseAllows, ready]⟩, ⟨rfl, trivial, by decide, by simp [phaseAllows, ready]⟩,
   ⟨rfl, trivial, by decide, by simp [phaseAllows, ready]⟩⟩

theorem witness_FeatureSetGateRefuses :
    (Instr.setTvocBaseline 0xFFFF).issues = some .setTvocBaseline ∧ gatedByFeatureSet .setTvocBaseline ∧
    (Instr.setTvocBaseline 0xFFFF).operandsValid ∧ (ready 2 .nack 10000).phase = 2 ∧
    ¬featureSetOpen (withFeatureSet 0x0020 (ready 2 .nack 10000)) ∧
    featureSetOpen (withFeatureSet 0x0021 (ready 2 .nack 10000)) ∧
    ∃ t, exec (.setTvocBaseline 0xFFFF) (withFeatureSet 0x0021 (ready 2 .nack 10000)) = .next t ∧ t.status = 0 :=
  ⟨rfl, .inr rfl, (by decide : (0x0000FFFF : BitVec 32).toNat < 2 ^ 16), rfl, fun h => absurd h.2 (by decide), ⟨rfl, by decide⟩,
   next_of_field (f := State.status) (by decide +kernel)⟩

theorem witness_EarlyReadIsRefused :
    ((flying .iaq 12000 12999 .nack).phase = 3 ∧ (flying .iaq 12000 12999 .nack).kind = .iaq ∧
      (BitVec.ofNat 64 (flying .iaq 12000 12999 .nack).env.now - (flying .iaq 12000 12999 .nack).tIssue).toNat <
        (flying .iaq 12000 12999 .nack).tWait.toNat) ∧
    ((flying .iaq 12000 13000 .nack).tWait.toNat ≤
        (BitVec.ofNat 64 (flying .iaq 12000 13000 .nack).env.now - (flying .iaq 12000 13000 .nack).tIssue).toNat ∧
      ∃ t, exec Kind.iaq.readRequest (flying .iaq 12000 13000 .nack) = .next t ∧ t.status = 0x0812) :=
  ⟨by decide, by decide, next_of_field (f := State.status) (by decide +kernel)⟩

theorem witness_IllegalPhaseFaults :
    5 ≤ (ready 5 .nack 0).phase.toNat ∧ 5 ≤ (ready 7 .nack 0).phase.toNat ∧
    Instr.probe.issues = some .getFeatureSet ∧ Instr.probe.operandsValid := ⟨by decide, by decide, rfl, trivial⟩

theorem witness_WaitPathHoldsTheWait :
    (flying .iaq 12000 1000 .nack).tIssue = BitVec.ofNat 64 (flying .iaq 12000 1000 .nack).env.now := by decide

theorem witness_ReadPathVerifiesEveryTriple :
    ((ready 2 (.bytes [0x80, 0x01, 0x93, 0x80, 0x02, 0xC0]) 0).cfg.catalog.entry .getIaqBaseline).nResp.val = 2 ∧
    readAnswers (ready 2 (.bytes [0x80, 0x01, 0x93, 0x80, 0x02, 0xC0]) 0) (.bytes [0x80, 0x01, 0x93, 0x80, 0x02, 0xC0]) ∧
    (∀ i < 2, badTriple [0x80, 0x01, 0x93, 0x80, 0x02, 0xC0] i = false) ∧
    badTriple [0x80, 0x01, 0x93, 0x80, 0x02, 0xC1] 1 = true ∧ (∀ j < 1, badTriple [0x80, 0x01, 0x93, 0x80, 0x02, 0xC1] j = false) :=
  ⟨rfl, rfl, by decide +kernel, by decide +kernel, by decide +kernel⟩

theorem witness_FailedWriteIsReported :
    Instr.measureIaq.issues = some .measureIaq ∧ Instr.measureIaq.operandsValid ∧ mayIssue .measureIaq (writing 2 .nack) ∧
    ((writing 2 .nack).cfg.catalog.entry .measureIaq).nArg.val = Instr.measureIaq.argCount ∧
    writeAnswers (writing 2 .nack) .nack ∧ writeAnswers (writing 2 .ioerr) .ioerr :=
  ⟨rfl, trivial, ⟨rfl, fun _ => ⟨rfl, by decide⟩⟩, rfl, rfl, rfl⟩

theorem witness_FailedReadIsReported :
    Instr.getIaqBaseline.issues = some .getIaqBaseline ∧
    (∀ k : Kind, Instr.getIaqBaseline ≠ k.measureRequest ∧ Instr.getIaqBaseline ≠ k.blockingRequest) ∧
    Instr.getIaqBaseline.operandsValid ∧ mayIssue .getIaqBaseline (ready 2 .nack 0) ∧
    countsAre (ready 2 .nack 0) .getIaqBaseline Instr.getIaqBaseline.argCount 2 ∧ writeAnswers (ready 2 .nack 0) .ack ∧
    readAnswers (ready 2 .nack 0) .nack ∧ readStatus 2 .nack ≠ 0 ∧ readStatus 2 (.bytes []) = 0x0824 ∧
    readStatus 2 (.bytes [0x80, 0x01, 0x93, 0x80, 0x02, 0xC1]) = 0x0913 :=
  ⟨rfl, by intro k; cases k <;> decide, trivial, ⟨rfl, fun _ => ⟨rfl, by decide⟩⟩, ⟨rfl, rfl⟩, rfl, rfl, by decide, by decide,
   by decide +kernel⟩

theorem witness_FailedMeasurementReadEndsIt :
    ((flying .tvoc 12000 13000 .ioerr).cfg.catalog.entry Kind.tvoc.cmd).nArg.val = 0 ∧
    ((flying .tvoc 12000 13000 .ioerr).cfg.catalog.entry Kind.tvoc.cmd).nResp.val = 2 ∧
    readAnswers (flying .tvoc 12000 13000 .ioerr) .ioerr ∧ readStatus 2 .ioerr ≠ 0 ∧
    ((flying .tvoc 12000 13000 .ioerr).phase = 3 ∧ (flying .tvoc 12000 13000 .ioerr).kind = .tvoc ∧
      waitElapsed (flying .tvoc 12000 13000 .ioerr) = true) ∧
    ((ready 2 .ioerr 12000).phase = 2 ∧ readAnswers (ready 2 .ioerr 12000) .ioerr ∧ writeAnswers (ready 2 .ioerr 12000) .ack) :=
  ⟨rfl, rfl, rfl, by decide, ⟨rfl, rfl, by decide⟩, rfl, rfl, rfl⟩

/-- For the statements about every next state: a request that completes, with its three calls. -/
theorem witness_exec_completes :
    ∃ t, exec .probe (ready 0 (.bytes [0x00, 0x22, 0x65]) 10000) = .next t ∧
      (newEvents (ready 0 (.bytes [0x00, 0x22, 0x65]) 10000) t).map (fun e => (e.isWrite, e.isSleep, e.isRead)) =
        [(true, false, false), (false, true, false), (false, false, true)] :=
  next_of_field (f := fun t =>
    (newEvents (ready 0 (.bytes [0x00, 0x22, 0x65]) 10000) t).map fun e => (e.isWrite, e.isSleep, e.isRead))
    (by decide +kernel)

/-- For the clauses about an error before any bus I/O: `AtMostOneExchange`, `BuffersHoldTheTransaction`, `ErrorsArePrecise`. -/
theorem witness_exec_is_refused :
    ∃ t, exec .iaqInit (ready 0 .nack 0) = .next t ∧
      (errKind t.status ≠ 0 ∧ errStage t.status = 0 ∧ newEvents (ready 0 .nack 0) t = []) := by
  obtain ⟨t, h, ht⟩ := next_of_field (r := exec .iaqInit (ready 0 .nack 0))
    (f := fun t => decide (errKind t.status ≠ 0 ∧ errStage t.status = 0 ∧ newEvents (ready 0 .nack 0) t = []))
    (v := true) (by decide +kernel)
  exact ⟨t, h, of_decide_eq_true ht⟩

/-- For the clauses about an error after the write: `ErrorsArePrecise`, `BuffersHoldTheTransaction`. -/
theorem witness_exec_fails_in_the_read :
    ∃ t, exec .readTvoc (flying .tvoc 12000 13000 (.bytes [0x01])) = .next t ∧ (t.status, t.phase, t.rxbuf) = (0x0824, 2, [0x01]) :=
  next_of_field (f := fun t => (t.status, t.phase, t.rxbuf)) (by decide +kernel)

/-- For the last clause of `PhaseFollowsTheTable`, and the last of `OnlyTheirRequestsWriteRegisters`. -/
theorem witness_PhaseFollowsTheTable :
    (ready 2 .nack 0).phase ≠ 3 ∧
    ∃ t, exec .measureRaw (ready 2 .nack 0) = .next t ∧ (t.phase, t.kind) = (3, .raw) :=
  ⟨by decide, next_of_field (f := fun t => (t.phase, t.kind)) (by decide +kernel)⟩

/-- For the other clauses of `OnlyTheirRequestsWriteRegisters`. -/
theorem witness_OnlyTheirRequestsWriteRegisters :
    (∃ t, exec .probe (withFeatureSet 0 (ready 0 (.bytes [0x00, 0x22, 0x65]) 10000)) = .next t ∧ t.fsReg = 0x0022) ∧
    (∃ t, exec (.setIaqBaseline 1 2) (ready 2 .nack 10000) = .next t ∧ (t.baseReg, t.baseValid) = (0x00010002, true)) ∧
    (∃ t, exec (.crcVerify 0x00008001 0x0093) (ready 0 .nack 0) = .next t ∧ t.b = true) :=
  ⟨next_of_field (f := State.fsReg) (by decide +kernel),
   next_of_field (f := fun t => (t.baseReg, t.baseValid)) (by decide +kernel),
   next_of_field (f := State.b) (by decide +kernel)⟩

/-- For both clauses of `OnlyTrafficWritesItsRegisters`. -/
theorem witness_OnlyTrafficWritesItsRegisters :
    ((ready 2 .nack 0).pendCmd ≠ .measureRaw ∧ (ready 2 .nack 0).crcReg ≠ 0xC0) ∧
    (∃ t, exec .measureRaw (ready 2 .nack 0) = .next t ∧ t.pendCmd = .measureRaw) ∧
    (∃ t, exec (.cmdSetIaqBaseline (some 0x8001) (some 0x8002)) (ready 2 .nack 10000) = .next t ∧ t.crcReg = 0xC0) :=
  ⟨by decide, next_of_field (f := State.pendCmd) (by decide +kernel), next_of_field (f := State.crcReg) (by decide +kernel)⟩

/-! The result statements: the gates, the counts and the answers are met together. -/

theorem witness_WireCommandsRunTheirExchange :
    (Instr.cmdGetIaqBaseline.wire = some (.getIaqBaseline, []) ∧
      mayIssue .getIaqBaseline (ready 2 (.bytes (triples [0x8001, 0x8002])) 10000) ∧
      countsAre (ready 2 (.bytes (triples [0x8001, 0x8002])) 10000) .getIaqBaseline 0 2 ∧
      writeAnswers (ready 2 (.bytes (triples [0x8001, 0x8002])) 10000) .ack ∧
      readAnswers (ready 2 (.bytes (triples [0x8001, 0x8002])) 10000) (.bytes (triples [0x8001, 0x8002]))) ∧
    ((Instr.cmdSetTvocBaseline (some 7)).wire = some (.setTvocBaseline, [7]) ∧ mayIssue .setTvocBaseline (ready 2 .nack 10000) ∧
      countsAre (ready 2 .nack 10000) .setTvocBaseline 1 0 ∧ writeAnswers (ready 2 .nack 10000) .ack) :=
  ⟨⟨rfl, ⟨rfl, fun _ => ⟨rfl, by decide⟩⟩, ⟨rfl, rfl⟩, rfl, rfl⟩, rfl, ⟨rfl, fun _ => ⟨rfl, by decide⟩⟩, ⟨rfl, rfl⟩, rfl⟩

/-- `ProbeReachesProbed` in phase 0, `FeatureSetVersionIsCached` in phase 1. -/
theorem witness_ProbeReachesProbed :
    (mayIssue .getFeatureSet (ready 0 (.bytes (triple 0x0022)) 10000) ∧
      countsAre (ready 0 (.bytes (triple 0x0022)) 10000) .getFeatureSet 0 1 ∧
      writeAnswers (ready 0 (.bytes (triple 0x0022)) 10000) .ack ∧
      readAnswers (ready 0 (.bytes (triple 0x0022)) 10000) (.bytes (triple 0x0022))) ∧
    mayIssue .getFeatureSet (ready 1 (.bytes (triple 0x0022)) 10000) :=
  ⟨⟨⟨.inl rfl, fun _ => ⟨rfl, by decide⟩⟩, ⟨rfl, rfl⟩, rfl, rfl⟩, .inr (.inl rfl), fun _ => ⟨rfl, by decide⟩⟩

theorem witness_SerialIdIsThreeWords :
    mayIssue .getSerialId (ready 0 (.bytes (triple 0 ++ triple 0x0123 ++ triple 0x4567)) 500) ∧
    countsAre (ready 0 (.bytes (triple 0 ++ triple 0x0123 ++ triple 0x4567)) 500) .getSerialId 0 3 ∧
    writeAnswers (ready 0 (.bytes (triple 0 ++ triple 0x0123 ++ triple 0x4567)) 500) .ack ∧
    readAnswers (ready 0 (.bytes (triple 0 ++ triple 0x0123 ++ triple 0x4567)) 500)
      (.bytes (triple 0 ++ triple 0x0123 ++ triple 0x4567)) :=
  ⟨⟨.inl rfl, fun _ => ⟨rfl, by decide⟩⟩, ⟨rfl, rfl⟩, rfl, rfl⟩

/-- `IaqInitReachesInitialized` in both phases that allow it. -/
theorem witness_IaqInitReachesInitialized :
    mayIssue .iaqInit (ready 1 .nack 10000) ∧ mayIssue .iaqInit (ready 2 .nack 10000) ∧
    countsAre (ready 1 .nack 10000) .iaqInit 0 0 ∧ writeAnswers (ready 1 .nack 10000) .ack :=
  ⟨⟨.inl rfl, fun _ => ⟨rfl, by decide⟩⟩, ⟨.inr rfl, fun _ => ⟨rfl, by decide⟩⟩, ⟨rfl, rfl⟩, rfl⟩

theorem witness_GetIaqBaselineReturnsPair :
    mayIssue .getIaqBaseline (ready 2 (.bytes (triple 1 ++ triple 2)) 10000) ∧
    countsAre (ready 2 (.bytes (triple 1 ++ triple 2)) 10000) .getIaqBaseline 0 2 ∧
    writeAnswers (ready 2 (.bytes (triple 1 ++ triple 2)) 10000) .ack ∧
    readAnswers (ready 2 (.bytes (triple 1 ++ triple 2)) 10000) (.bytes (triple 1 ++ triple 2)) :=
  ⟨⟨rfl, fun _ => ⟨rfl, by decide⟩⟩, ⟨rfl, rfl⟩, rfl, rfl⟩

/-- Both orders of `P_SETBASE_ORDER`. -/
theorem witness_SetIaqBaselineWritesPair :
    (0x0000FFFF : BitVec 32).toNat < 2 ^ 16 ∧ (0xFFFF : Word) = (0x0000FFFF : BitVec 32).extractLsb' 0 16 ∧
    mayIssue .setIaqBaseline (ready 2 .nack 10000) ∧ countsAre (ready 2 .nack 10000) .setIaqBaseline 2 0 ∧
    writeAnswers (ready 2 .nack 10000) .ack ∧ (ready 2 .nack 10000).cfg.setBaseTvocAt = .first ∧
    ({ ready 2 .nack 10000 with cfg := { Params.default with setBaseTvocAt := .second } } : State).cfg.setBaseTvocAt = .second :=
  ⟨by decide, by decide, ⟨rfl, fun _ => ⟨rfl, by decide⟩⟩, ⟨rfl, rfl⟩, rfl, rfl, rfl⟩

/-- `TvocInceptiveBaselineIsReturned` and `SetTvocBaselineWritesValue`. -/
theorem witness_TvocBaselines :
    mayIssue .getTvocInceptiveBaseline (withFeatureSet 0x0021 (ready 2 (.bytes (triple 9)) 10000)) ∧
    countsAre (ready 2 (.bytes (triple 9)) 10000) .getTvocInceptiveBaseline 0 1 ∧
    writeAnswers (ready 2 (.bytes (triple 9)) 10000) .ack ∧ readAnswers (ready 2 (.bytes (triple 9)) 10000) (.bytes (triple 9)) ∧
    mayIssue .setTvocBaseline (withFeatureSet 0x0021 (ready 2 .nack 10000)) ∧
    countsAre (ready 2 .nack 10000) .setTvocBaseline 1 0 ∧ (0x0000FFFF : BitVec 32).toNat < 2 ^ 16 :=
  ⟨⟨rfl, fun _ => ⟨rfl, by decide⟩⟩, ⟨rfl, rfl⟩, rfl, rfl, ⟨rfl, fun _ => ⟨rfl, by decide⟩⟩, ⟨rfl, rfl⟩, by decide⟩

theorem witness_HumidityWritesCompensation :
    0 ≤ (0x0003E800 : BitVec 32).toInt ∧ (0x0003E800 : BitVec 32).toInt ≤ 256000 ∧ 0 ≤ (0 : BitVec 32).toInt ∧
    mayIssue .setAbsoluteHumidity (ready 2 .nack 10000) ∧ countsAre (ready 2 .nack 10000) .setAbsoluteHumidity 1 0 ∧
    writeAnswers (ready 2 .nack 10000) .ack :=
  ⟨by decide, by decide, by decide, ⟨rfl, fun _ => ⟨rfl, by decide⟩⟩, ⟨rfl, rfl⟩, rfl⟩

theorem witness_HumidityScaleIsOnto : (256000 : Nat) ≤ 256000 ∧ (3 : Nat) ≤ 3 := by decide

theorem witness_SelfTestComparesSentinel :
    mayIssue .measureTest (ready 0 (.bytes (triple 0xD400)) 220000) ∧
    countsAre (ready 0 (.bytes (triple 0xD400)) 220000) .measureTest 0 1 ∧
    writeAnswers (ready 0 (.bytes (triple 0xD400)) 220000) .ack ∧
    readAnswers (ready 0 (.bytes (triple 0xD400)) 220000) (.bytes (triple 0xD400)) :=
  ⟨⟨.inl rfl, fun _ => ⟨rfl, by decide⟩⟩, ⟨rfl, rfl⟩, rfl, rfl⟩

/-- `SplitMeasureStarts`, `BlockingReadReturnsDecoded` and `BlockingEqualsSplit`, for every kind; and both wire positions of
the decoded words. -/
theorem witness_measurements (k : Kind) :
    (ready 2 (.bytes (triple 5 ++ triple 6)) 25000).phase = 2 ∧
    countsAre (ready 2 (.bytes (triple 5 ++ triple 6)) 25000) k.cmd 0 2 ∧
    countsAre (mapped (ready 2 (.bytes (triple 5 ++ triple 6)) 25000)) k.cmd 0 2 ∧
    k.decoded (ready 2 .nack 0).cfg 5 6 = k.decoded (mapped (ready 2 .nack 0)).cfg 6 5 ∧
    writeAnswers (ready 2 (.bytes (triple 5 ++ triple 6)) 25000) .ack ∧
    readAnswers (ready 2 (.bytes (triple 5 ++ triple 6)) 25000) (.bytes (triple 5 ++ triple 6)) := by
  cases k <;> exact ⟨rfl, ⟨rfl, rfl⟩, ⟨rfl, rfl⟩, rfl, rfl, rfl⟩

/-- The last hypothesis of `BlockingEqualsSplit`: idling for the wait is enough. -/
theorem witness_BlockingEqualsSplit :
    ∃ m, exec Kind.raw.measureRequest (ready 2 (.bytes (triple 5 ++ triple 6)) 0) = .next m ∧
      waitElapsed { m with env := { m.env with now := m.env.now + 25000 } } = true :=
  next_of_field (f := fun m => waitElapsed { m with env := { m.env with now := m.env.now + 25000 } }) (by decide +kernel)

theorem witness_SplitReadReturnsDecoded (k : Kind) :
    (flying k 25000 26000 (.bytes (triple 5 ++ triple 6))).phase = 3 ∧ (flying k 25000 26000 (.bytes (triple 5 ++ triple 6))).kind = k ∧
    (flying k 25000 26000 (.bytes (triple 5 ++ triple 6))).tWait.toNat ≤
      (BitVec.ofNat 64 (flying k 25000 26000 (.bytes (triple 5 ++ triple 6))).env.now -
        (flying k 25000 26000 (.bytes (triple 5 ++ triple 6))).tIssue).toNat ∧
    ((flying k 25000 26000 (.bytes (triple 5 ++ triple 6))).cfg.catalog.entry k.cmd).nResp.val = 2 ∧
    readAnswers (flying k 25000 26000 (.bytes (triple 5 ++ triple 6))) (.bytes (triple 5 ++ triple 6)) ∧
    readAnswers (mapped (flying k 25000 26000 (.bytes (triple 5 ++ triple 6)))) (.bytes (triple 5 ++ triple 6)) := by
  cases k <;> exact ⟨rfl, rfl, by decide, rfl, rfl, rfl⟩

/-! The machine as a whole. -/

theorem witness_ResetLeavesSpecifiedValues :
    (presented .newSession (ready 2 .nack 0)).txn = .idle ∧
    (presented .newSession (ready 2 .nack 0)).env.host = [{ gap := 3, item := .newSession }] := ⟨rfl, rfl⟩

/-- `StepKeepsInvariant`, `NoBusCallBeforeTheWait`, `ParametersNeverChange` and `TimeNeverGoesBack`: a step that starts a
measurement, from a state that meets both invariants. -/
theorem witness_StepKeepsInvariant :
    (presented (.encoded (.request 0x04 0 0)) (ready 2 .nack 0)).Inv ∧
    (presented (.encoded (.request 0x04 0 0)) (ready 2 .nack 0)).waitKept ∧
    ∃ t, step (presented (.encoded (.request 0x04 0 0)) (ready 2 .nack 0)) = .next t ∧ (t.phase, t.env.now) = (3, 1003) := by
  refine ⟨⟨rfl, by decide, fun _ => rfl, fun h => absurd h (by decide), by decide, by decide, by decide, .inl rfl, by decide⟩,
    ⟨by decide, fun _ => by decide⟩, next_of_field (f := fun t => (t.phase, t.env.now)) (by decide +kernel)⟩

/-- `NoBusCallBeforeTheWait`: a step that reads what is in flight. -/
theorem witness_NoBusCallBeforeTheWait :
    (presented (.encoded (.request 0x05 0 0)) (flying .iaq 12000 13000 .nack)).waitKept ∧
    ∃ t, step (presented (.encoded (.request 0x05 0 0)) (flying .iaq 12000 13000 .nack)) = .next t ∧
      ((newEvents (presented (.encoded (.request 0x05 0 0)) (flying .iaq 12000 13000 .nack)) t).map Event.time, t.env.now) =
        ([13003], 13003) :=
  ⟨⟨by decide, fun h => absurd rfl h⟩, next_of_field (f := fun t =>
    ((newEvents (presented (.encoded (.request 0x05 0 0)) (flying .iaq 12000 13000 .nack)) t).map Event.time, t.env.now))
    (by decide +kernel)⟩

theorem witness_RegisterBeyondCountFaults :
    State.reset.wcount.toNat ≤ 0 ∧ State.reset.narg.toNat ≤ 0 ∧ 0 < (State.reset.setWcount 1).wcount.toNat ∧
    1 < (State.reset.setArgs 1 2 2).narg.toNat := by decide

/-- Each clause at a boundary: the lowest and, where there is one between, the nearest unlisted `ERR_SUB` of each kind. -/
theorem witness_IllegalStatusFaults :
    statusReserved 0x1000 ≠ 0 ∧ 6 ≤ (errKind 0x0006).toNat ∧ errStage 0x0C00 = 3 ∧
    (errKind 0x0010 = 0 ∧ errSub 0x0010 ≠ 0) ∧
    (errKind 0x0031 = 1 ∧ errSub 0x0031 ≠ 1 ∧ errSub 0x0031 ≠ 2) ∧
    (errKind 0x0002 = 2 ∧ errSub 0x0002 ≠ 1 ∧ errSub 0x0002 ≠ 2) ∧
    (errKind 0x0023 = 3 ∧ errSub 0x0023 ≠ 1) ∧ (errKind 0x0005 = 5 ∧ errSub 0x0005 ≠ 1) ∧
    (errKind 0x0004 = 4 ∧ errSub 0x0004 = 0) ∧ (errKind 0x0064 = 4 ∧ 6 ≤ (errSub 0x0064).toNat) := by decide +kernel

/-- R170: two of them at the host's port. -/
theorem test_unlisted_sub_faults :
    [0x0031, 0x0064].all (fun w =>
      match hostResponse (State.reset.setStatus w) with
      | .ok _ => false
      | .error e => decide (e = .illegalStatus w)) = true := by
  decide +kernel

end Sys2Proof.Tests
end

section
/-! PROOF. Every bus call follows the catalog (O26). A relation between two states says that only calls which follow the
catalog were recorded between them; it is transitive, each operation that uses a port meets it, and so does each run of the
protocol engine, composed as its definition composes it. -/

namespace Sys2Proof.Machine

/-- The call goes to `P_ADDR`, and it writes the frame of a catalog entry (R35) or reads the response of one (R36). -/
def FollowsCatalog (cfg : Params) : PortCall → Prop
  | .write addr bytes _ =>
    addr = cfg.addr ∧ ∃ c args, bytes = frameOf (cfg.catalog.entry c).opcode args ∧
      args.length = (cfg.catalog.entry c).nArg.val ∧ bytes.length = 2 + 3 * args.length
  | .read addr n _ => addr = cfg.addr ∧ n ≠ 0 ∧ ∃ c, n = 3 * (cfg.catalog.entry c).nResp.val
  | .sleep _ => True

/-- From `s` to `t` the parameters stay, and the calls recorded follow the catalog. -/
structure CallsFollow (s t : State) : Prop where
  cfg : t.cfg = s.cfg
  calls : ∃ es, t.env.trace = s.env.trace ++ es ∧ ∀ e ∈ es, FollowsCatalog s.cfg e.call

/-! ### The relation -/

theorem callsFollow_of_env {s t : State} (hc : t.cfg = s.cfg) (he : t.env = s.env) : CallsFollow s t :=
  ⟨hc, [], by simp [he], by simp⟩

theorem CallsFollow.trans {s t u : State} (h₁ : CallsFollow s t) (h₂ : CallsFollow t u) : CallsFollow s u := by
  obtain ⟨c₁, es, ht, hes⟩ := h₁
  obtain ⟨c₂, fs, hu, hfs⟩ := h₂
  refine ⟨c₂.trans c₁, es ++ fs, by rw [hu, ht, List.append_assoc], fun e he => ?_⟩
  rcases List.mem_append.1 he with he | he
  · exact hes e he
  · exact c₁ ▸ hfs e he

/-- What is written besides the parameters and the environment does not matter. -/
theorem CallsFollow.congr {s t u : State} (h : CallsFollow s t) (hc : u.cfg = t.cfg) (he : u.env = t.env) :
    CallsFollow s u := h.trans (callsFollow_of_env hc he)

theorem CallsFollow.newEvents {s t : State} (h : CallsFollow s t) : ∀ e ∈ newEvents s t, FollowsCatalog s.cfg e.call := by
  obtain ⟨-, es, ht, hes⟩ := h
  simpa [Machine.newEvents, ht] using hes

/-! ### The ports -/

/-- `TXBUF` holds the frame of a catalog entry, with as many argument words as the entry has. -/
def HoldsFrame (s : State) : Prop :=
  ∃ c ws, s.txbuf = frameOf (s.cfg.catalog.entry c).opcode ws ∧ ws.length = (s.cfg.catalog.entry c).nArg.val

theorem busWrite_callsFollow {s : State} (h : HoldsFrame s) : CallsFollow s (busWrite s.txbuf s) := by
  obtain ⟨c, ws, hb, hl⟩ := h
  have hf : FollowsCatalog s.cfg (.write s.cfg.addr s.txbuf (nextWrite s).result) :=
    ⟨rfl, c, ws, hb, hl, by rw [hb, frameOf_length]⟩
  exact ⟨rfl, _, congrArg Env.trace (busWrite_env s.txbuf s), by simpa using hf⟩

theorem busRead_callsFollow {c : Cmd} {s : State} (h : (s.cfg.catalog.entry c).nResp.val ≠ 0) :
    CallsFollow s (busRead (3 * (s.cfg.catalog.entry c).nResp.val) s) := by
  have hf : FollowsCatalog s.cfg (.read s.cfg.addr (3 * (s.cfg.catalog.entry c).nResp.val) (nextRead s).result) :=
    ⟨rfl, Nat.mul_ne_zero (by decide) h, c, rfl⟩
  exact ⟨rfl, _, congrArg Env.trace (busRead_env _ s), by simpa using hf⟩

theorem waitPath_callsFollow (s : State) : CallsFollow s (waitPath s) := by
  obtain ⟨-, -, -, -, slept, ht, -, hs⟩ := waitPath_env s
  refine ⟨by rw [waitPath_eq], slept, ht, fun e he => ?_⟩
  obtain ⟨-, ⟨us, hu⟩, -⟩ := hs e he
  rw [hu]
  trivial

/-! ### The runs of the protocol engine -/

/-- The state a run ends in, whether it returns or raises. -/
def Run.final : Run → State
  | .ok s => s
  | .err _ s => s

theorem andThen_callsFollow {s : State} {r : Run} {k : State → Run} (hr : CallsFollow s r.final)
    (hk : ∀ s', CallsFollow s' (k s').final) : CallsFollow s (r.andThen k).final := by
  cases r with
  | ok s' => exact hr.trans (hk s')
  | err e s' => exact hr

theorem onRaise_setKind_callsFollow {s : State} {r : Run} (k : Kind) (hr : CallsFollow s r.final) :
    CallsFollow s (r.onRaise (State.setKind k)).final := by
  cases r with
  | ok s' => exact hr
  | err e s' => exact hr.congr rfl rfl

theorem close_callsFollow {s : State} {r : Run} {isRead : Bool} {k : State → State} (hr : CallsFollow s r.final)
    (hk : ∀ s', CallsFollow s' (k s')) : CallsFollow s (r.close isRead k) := by
  cases r with
  | ok s' => exact hr.trans (hk s')
  | err e s' => exact hr.congr (by rw [Run.close, raise_eq]; rfl) (raise_env isRead e s')

theorem writePath_callsFollow (c : Cmd) {s : State} (h : HoldsFrame s) : CallsFollow s (writePath c s).final := by
  have hw := busWrite_callsFollow h
  rcases writePath_cases c s with ⟨-, hr⟩ | ⟨f, -, hr⟩
  · rw [hr]
    exact hw.congr rfl rfl
  · rw [hr]
    exact hw.congr rfl rfl

theorem receive_final (m : Nat) (s : State) :
    (receive m s).final.cfg = (busRead (3 * m) s).cfg ∧ (receive m s).final.env = (busRead (3 * m) s).env := by
  cases h : receive m s with
  | ok s' =>
    rw [(receive_ok h).1]
    exact ⟨rfl, rfl⟩
  | err e s' =>
    rw [(receive_err h).2.1]
    exact ⟨rfl, rfl⟩

theorem readPath_callsFollow (c : Cmd) (s : State) : CallsFollow s (readPath c s).final := by
  rw [readPath_def]
  split
  · exact callsFollow_of_env rfl rfl
  · rename_i hn
    obtain ⟨hc, he⟩ := receive_final (s.cfg.catalog.entry c).nResp.val (s.setTxn .read)
    have ht : CallsFollow s (s.setTxn .read) := callsFollow_of_env rfl rfl
    have hr : CallsFollow (s.setTxn .read) (busRead (3 * (s.cfg.catalog.entry c).nResp.val) (s.setTxn .read)) :=
      busRead_callsFollow hn
    exact ht.trans (hr.congr hc he)

theorem runFull_callsFollow (c : Cmd) {s : State} (h : HoldsFrame s) : CallsFollow s (runFull c s).final :=
  andThen_callsFollow (writePath_callsFollow c h) fun s₁ =>
    andThen_callsFollow ((waitPath_callsFollow s₁).trans (readPath_callsFollow c _)) fun _ => callsFollow_of_env rfl rfl

theorem runWriteOnly_callsFollow (c : Cmd) {s : State} (h : HoldsFrame s) : CallsFollow s (runWriteOnly c s).final :=
  andThen_callsFollow (writePath_callsFollow c h) fun _ => callsFollow_of_env rfl rfl

theorem runReadOnly_callsFollow (c : Cmd) (s : State) : CallsFollow s (runReadOnly c s).final :=
  andThen_callsFollow (readPath_callsFollow c s) fun _ => callsFollow_of_env rfl rfl

theorem runBlocking_callsFollow (k : Kind) {s : State} (h : HoldsFrame s) : CallsFollow s (runBlocking k s).final :=
  andThen_callsFollow (runWriteOnly_callsFollow k.cmd h) fun s₁ =>
    have hi : CallsFollow s₁ (inFlight k s₁) := callsFollow_of_env rfl rfl
    onRaise_setKind_callsFollow s.kind
      ((hi.trans (waitPath_callsFollow (inFlight k s₁))).trans (runReadOnly_callsFollow k.cmd _))

/-! ### The last rule lines -/

@[simp] theorem ret_cfg (ws : List Word) (s : State) : (ret ws s).cfg = s.cfg := congrArg Session.cfg (ret_session ws s)

theorem ret_callsFollow (ws : List Word) {s t : State} (h : CallsFollow s t) : CallsFollow s (ret ws t) :=
  h.congr (ret_cfg ws t) (ret_env ws t)

theorem probeDone_callsFollow (s : State) : CallsFollow s (probeDone s) := by
  unfold probeDone
  refine ret_callsFollow [] ?_
  split <;> exact callsFollow_of_env rfl rfl

theorem postOf_callsFollow (i : Instr) (s : State) : CallsFollow s (postOf i s) := by
  cases i
  case probe => exact probeDone_callsFollow s
  case getSerialId | getFeatureSetVersion | iaqInit | getIaqBaseline | setIaqBaseline | getTvocInceptiveBaseline
      | setTvocBaseline | setAbsoluteHumidity | measureTest =>
    exact ret_callsFollow _ (callsFollow_of_env rfl rfl)
  all_goals exact callsFollow_of_env rfl rfl

/-! ### The instructions -/

theorem Assembled.holdsFrame {c : Cmd} {s s' : State} (h : Assembled c (begin s) s') : HoldsFrame s' := by
  obtain ⟨-, hcfg, -⟩ := h.keeps
  obtain ⟨ws, hl, -, hb⟩ := h.frame
  exact ⟨c, ws, by rw [hb, hcfg]; rfl, by rw [hl, hcfg]; rfl⟩

theorem Assembled.callsFollow {c : Cmd} {s s' : State} (h : Assembled c (begin s) s') : CallsFollow s s' := by
  obtain ⟨henv, hcfg, -⟩ := h.keeps
  exact callsFollow_of_env hcfg henv

theorem exec_callsFollow {i : Instr} {s t : State} (h : exec i s = .next t) : CallsFollow s t := by
  cases exec_shape h with
  | refused e _ _ ht => exact ht ▸ callsFollow_of_env rfl rfl
  | crcCompute a0 _ ht => exact ht ▸ ret_callsFollow _ (callsFollow_of_env rfl rfl)
  | crcVerify a0 a1 _ ht => exact ht ▸ ret_callsFollow _ (callsFollow_of_env rfl rfl)
  | full c s' _ _ _ hs ht =>
    exact ht ▸ hs.callsFollow.trans (close_callsFollow (runFull_callsFollow c hs.holdsFrame) (postOf_callsFollow i))
  | started k s' _ _ hs ht =>
    exact ht ▸ hs.callsFollow.trans (close_callsFollow (runWriteOnly_callsFollow k.cmd hs.holdsFrame) fun _ =>
      ret_callsFollow [] (callsFollow_of_env rfl rfl))
  | wasRead k _ _ ht =>
    have hb : CallsFollow s (begin s) := callsFollow_of_env rfl rfl
    exact ht ▸ hb.trans (close_callsFollow (runReadOnly_callsFollow k.cmd (begin s)) fun _ =>
      ret_callsFollow _ (callsFollow_of_env rfl rfl))
  | blocked k s' _ _ hs ht =>
    exact ht ▸ hs.callsFollow.trans (close_callsFollow (runBlocking_callsFollow k hs.holdsFrame) fun _ =>
      ret_callsFollow _ (callsFollow_of_env rfl rfl))

/-- Settles O26: the calls that an instruction records follow the catalog, and the clauses of the statement are those of a
write and of a read. -/
theorem busCallsFollowTheCatalog : Obligations.BusCallsFollowTheCatalog := by
  unfold Obligations.BusCallsFollowTheCatalog
  intro i s t e h he
  have hf : FollowsCatalog s.cfg e.call := (exec_callsFollow h).newEvents e he
  refine ⟨fun addr bytes r hw => ?_, fun addr n r hr => ?_⟩
  · rw [hw] at hf
    exact hf
  · rw [hr] at hf
    exact hf

end Sys2Proof.Machine
end

section
/-! PROOF. Operands that do not fit their field (O12) and reserved request codes (O11). The rule of each request refuses
them before it does anything else, whatever the state is. -/

namespace Sys2Proof.Machine

/-! ### The rules' checks of their operands -/

theorem exec_setIaqBaseline_tooWide {a0 : BitVec 32} (a1 : BitVec 16) (s : State) (h : a0TooWide a0 = true) :
    exec (.setIaqBaseline a0 a1) s = .next (refusedWith (statusOf .argWidth) s) := by
  simp [exec, execSetIaqBaseline, h, raise_begin]

theorem exec_setTvocBaseline_tooWide {a0 : BitVec 32} (s : State) (h : a0TooWide a0 = true) :
    exec (.setTvocBaseline a0) s = .next (refusedWith (statusOf .argWidth) s) := by
  simp [exec, execSetTvocBaseline, h, raise_begin]

theorem exec_crcCompute_tooWide {a0 : BitVec 32} (s : State) (h : a0TooWide a0 = true) :
    exec (.crcCompute a0) s = .next (refusedWith (statusOf .argWidth) s) := by
  simp [exec, execCrcCompute, h, raise_begin]

theorem exec_crcVerify_tooWide {a0 : BitVec 32} {a1 : BitVec 16} (s : State) (h : a0TooWide a0 = true ∨ a1TooWide a1 = true) :
    exec (.crcVerify a0 a1) s = .next (refusedWith (statusOf .argWidth) s) := by
  simp [exec, execCrcVerify, h, raise_begin]

theorem exec_setAbsoluteHumidity_invalid {a0 : BitVec 32} (s : State) (h : humidityValid a0 = false) :
    exec (.setAbsoluteHumidity a0) s = .next (refusedWith (statusOf .humidityRange) s) := by
  simp [exec, execSetAbsoluteHumidity, h, raise_begin]

theorem exec_reserved (code : BitVec 8) (s : State) :
    exec (.reserved code) s = .next (refusedWith (statusOf .illegalRequest) s) :=
  congrArg Host.Outcome.next (raise_begin .illegalRequest s)

/-- R58: with bit 31 set the signed operand is negative, so it is below the range of R129. -/
theorem humidityValid_eq_false_of_sign {a0 : BitVec 32} (h : 2 ^ 31 ≤ a0.toNat) : humidityValid a0 = false := by
  have hneg : a0.toInt < 0 := BitVec.toInt_neg_iff.2 (by omega)
  exact Bool.eq_false_iff.2 fun hv => Int.not_le.2 hneg ((humidityValid_iff a0).1 hv).1

/-! ### The statements -/

/-- Settles O12: each rule's check of its operands fails, and what a raise writes there is all that is written. -/
theorem overwideOperandIsRefused : Obligations.OverwideOperandIsRefused := by
  unfold Obligations.OverwideOperandIsRefused
  refine ⟨fun a0 a1 s h => ?_, fun a0 a1 s h => ?_, fun a0 s h => ?_⟩
  · have hw : a0TooWide a0 = true := (a0TooWide_iff a0).2 h
    exact ⟨exec_setIaqBaseline_tooWide a1 s hw, exec_setTvocBaseline_tooWide s hw, exec_crcCompute_tooWide s hw,
      exec_crcVerify_tooWide s (.inl hw)⟩
  · exact exec_crcVerify_tooWide s (.inr ((a1TooWide_iff a1).2 h))
  · exact exec_setAbsoluteHumidity_invalid s (humidityValid_eq_false_of_sign h)

/-- Settles O11: the decoder reads a code from `0x18` on as reserved, and the rule of a reserved code only raises. -/
theorem reservedCodeIsIllegalRequest : Obligations.ReservedCodeIsIllegalRequest := by
  unfold Obligations.ReservedCodeIsIllegalRequest
  intro cat op a0 a1 s h
  exact ⟨congrArg Except.ok (decodeRequest_reserved a0 a1 h), exec_reserved op s⟩

end Sys2Proof.Machine
end

section
/-! PROOF. The range of the humidity operand (O13). Outside it the rule raises before anything else; inside it the request
runs in mode `FULL`, and neither its gates nor its transaction raise the error of that range. -/

namespace Sys2Proof.Machine

/-! ### The errors of the gates and of a transaction -/

/-- What the gates of a command refuse with is a `ProtocolError` (R170). -/
theorem admit_refuse_kindCode {c : Cmd} {s : State} {e : Error} (h : admitCmd c s = .refuse e) : e.kindCode = 4 := by
  unfold admitCmd fsGateCheck at h
  repeat' split at h
  all_goals cases h
  all_goals rfl

/-- An error of a transaction comes from its write or from its read, so its stage is not 0 (R170, R176). -/
theorem runFull_err_stageCode {c : Cmd} {e : Error} {s s' : State} (h : runFull c s = .err e s') : e.stageCode ≠ 0 := by
  rcases runFull_cases c s with ⟨f, -, hw⟩ | ⟨-, ⟨e₁, s₁, hp, hr⟩ | ⟨s₁, -, hr⟩⟩
  · cases hw.symm.trans h
    exact (by decide : (1 : BitVec 2) ≠ 0)
  · cases hr.symm.trans h
    obtain ⟨-, hrecv⟩ := readPath_err hp
    obtain ⟨hstage, -⟩ := receive_err hrecv
    simp [hstage]
  · cases hr.symm.trans h

/-! ### The status of the range error -/

theorem statusOf_ne_humidityRange_of_kind {e : Error} (h : e.kindCode ≠ 1) : statusOf e ≠ 0x0011 := fun hs =>
  h ((errKind_statusOf e).symm.trans (congrArg errKind hs))

theorem statusOf_ne_humidityRange_of_stage {e : Error} (h : e.stageCode ≠ 0) : statusOf e ≠ 0x0011 := fun hs =>
  h ((errStage_statusOf e).symm.trans (congrArg errStage hs))

/-- A request in mode `FULL` whose last lines end well never ends with the status of the range error. -/
theorem fullRequest_status_ne_humidityRange {c : Cmd} {args : List Word} {need : Nat} {k : State → State} {s t : State}
    (hk : ∀ u, (k u).status = 0) (h : fullRequest c args need k s = .next t) : t.status ≠ 0x0011 := by
  rcases fullRequest_next h with ⟨e, ha, rfl⟩ | ⟨-, s', -, rfl⟩
  · have hkind : e.kindCode ≠ 1 := by simp [admit_refuse_kindCode ha]
    rw [raise_status]
    exact statusOf_ne_humidityRange_of_kind hkind
  · cases hr : runFull c s' with
    | ok u =>
      rw [Run.close, hk u]
      decide
    | err e u =>
      rw [Run.close, raise_status]
      exact statusOf_ne_humidityRange_of_stage (runFull_err_stageCode hr)

/-! ### The rule of the request -/

/-- R131: an operand in range is scaled and written, in mode `FULL`. -/
theorem exec_setAbsoluteHumidity_valid {a0 : BitVec 32} (s : State) (h : humidityValid a0 = true) :
    exec (.setAbsoluteHumidity a0) s =
      fullRequest .setAbsoluteHumidity [humidityWord s.cfg a0] 0 (fun u => ret [] u) (begin s) := if_pos h

/-- Settles O13: the range is the rule's first check, and what runs once it has passed raises only other errors. -/
theorem humidityRangeIsValidated : Obligations.HumidityRangeIsValidated := by
  unfold Obligations.HumidityRangeIsValidated
  refine fun a0 s => ⟨fun hout => ?_, fun hin t ht => ?_⟩
  · have hv : humidityValid a0 = false := Bool.eq_false_iff.2 fun hv => hout ((humidityValid_iff a0).1 hv)
    exact exec_setAbsoluteHumidity_invalid s hv
  · rw [exec_setAbsoluteHumidity_valid s ((humidityValid_iff a0).2 hin)] at ht
    exact fullRequest_status_ne_humidityRange (ret_status []) ht

end Sys2Proof.Machine
end

section
/-! PROOF. A split read of the kind in flight (O17). While its wait is not over its last check refuses it; once the wait is
over it runs, and what its run raises has a stage that no refusal has. -/

namespace Sys2Proof.Machine

/-- R103, R155: the wait of the last command issued is over. -/
theorem waitElapsed_iff (s : State) :
    waitElapsed s = true ↔ s.tWait.toNat ≤ (BitVec.ofNat 64 s.env.now - s.tIssue).toNat := decide_eq_true_iff

/-- R142: for the kind in flight only the check of the wait is left. -/
theorem readAdmit_inFlight {k : Kind} {s : State} (hp : s.phase = 3) (hk : s.kind = k) :
    readAdmit k s = earlyReadCheck s := by
  have hr : readPhase s = .ok .measurementInFlight := readPhase_of_bits hp
  simp [readAdmit, hr, hk]

/-- R155: a split read of the kind in flight is refused before its wait is over. -/
theorem exec_read_early {k : Kind} {s : State} (hp : s.phase = 3) (hk : s.kind = k) (hw : waitElapsed s = false) :
    exec k.readRequest s = .next (refusedWith (statusOf .earlyRead) s) := by
  have hc : earlyReadCheck (begin s) = .refuse .earlyRead := if_neg (Bool.eq_false_iff.1 hw)
  exact exec_read_refused ((readAdmit_inFlight (s := begin s) hp hk).trans hc)

/-- An error of `Execute(c, READ_ONLY)` comes from its read (R170, R176). -/
theorem runReadOnly_err_stageCode {c : Cmd} {e : Error} {s s' : State} (h : runReadOnly c s = .err e s') :
    e.stageCode = 2 := by
  rcases runReadOnly_cases c s with ⟨e₁, s₁, hp, hr⟩ | ⟨s₁, -, hr⟩
  · cases hr.symm.trans h
    obtain ⟨-, hrecv⟩ := readPath_err hp
    exact (receive_err hrecv).1
  · cases hr.symm.trans h

/-- A split read that runs ends well, or with an error of its read. -/
theorem runReadOnly_close_status (k : Kind) (s : State) :
    ((runReadOnly k.cmd s).close true (readDone k)).status = 0 ∨
      errStage ((runReadOnly k.cmd s).close true (readDone k)).status = 2 := by
  cases hr : runReadOnly k.cmd s with
  | ok u => exact .inl (ret_status _ _)
  | err e u =>
    right
    rw [Run.close, raise_status, errStage_statusOf]
    exact runReadOnly_err_stageCode hr

/-- Settles O17: the unsigned difference of R182 decides the last check, and the status of an early read has stage 0 while
an error of the read has stage 2. -/
theorem earlyReadIsRefused : Obligations.EarlyReadIsRefused := by
  unfold Obligations.EarlyReadIsRefused
  refine fun k s hp hk => ⟨fun hlt => ?_, fun hle t ht hst => ?_⟩
  · have hw : waitElapsed s = false := Bool.eq_false_iff.2 fun h => Nat.not_le.2 hlt ((waitElapsed_iff s).1 h)
    exact exec_read_early hp hk hw
  · rw [exec_read hp hk ((waitElapsed_iff s).2 hle)] at ht
    have hend : t.status = 0 ∨ errStage t.status = 2 := settle_next ht ▸ runReadOnly_close_status k (begin s)
    rw [hst] at hend
    exact absurd hend (by decide)

end Sys2Proof.Machine
end

section
/-! PROOF. The catalog and the parameters stay (O52). What one step can do is said once; an instruction keeps the parameters
by `exec_callsFollow`, and a new session takes them over from the state it ends. -/

namespace Sys2Proof.Machine

/-! ### What a step can do -/

/-- The shapes in which `step s` answers `next t`. -/
inductive StepShape (s t : State) : Prop where
  /-- R12, R180: a request is in progress, or nothing is presented. -/
  | stays (hs : s.txn ≠ .idle ∨ s.env.host = []) (ht : t = s)
  /-- R190: a new session. -/
  | session (gap : Nat) (rest : List HostInput) (hidle : s.txn = .idle)
      (hhost : s.env.host = { gap := gap, item := .newSession } :: rest) (ht : t = newSession (takeInput gap rest s))
  /-- R3, R6: the instruction of the item runs. -/
  | ran (gap : Nat) (rest : List HostInput) (e : Encoded) (i : Instr) (hidle : s.txn = .idle)
      (hhost : s.env.host = { gap := gap, item := .encoded e } :: rest) (hd : decode s.cfg.catalog e = .ok i)
      (hx : exec i (takeInput gap rest s) = .next t)

/-- Whatever is presented, a next state has one of the shapes. -/
theorem step_shape {s t : State} (h : step s = .next t) : StepShape s t := by
  unfold step at h
  split at h
  next hbusy =>
    cases h
    exact .stays (.inl hbusy) rfl
  next hidle =>
    have hidle : s.txn = .idle := Decidable.of_not_not hidle
    split at h
    next hnone =>
      cases h
      exact .stays (.inr hnone) rfl
    next input rest hhost =>
      obtain ⟨gap, item⟩ := input
      cases item with
      | newSession =>
        cases h
        exact .session gap rest hidle hhost rfl
      | encoded e =>
        simp only at h
        split at h
        next i hd => exact .ran gap rest e i hidle hhost hd h
        next => cases h

/-! ### The parameters -/

@[simp] theorem takeInput_cfg (gap : Nat) (rest : List HostInput) (s : State) : (takeInput gap rest s).cfg = s.cfg := rfl

/-- R43, R200: a new session keeps the parameters. -/
@[simp] theorem newSession_cfg (s : State) : (newSession s).cfg = s.cfg := rfl

/-- Settles O52: for each shape of a step, its next state has the parameters of the state before it. -/
theorem parametersNeverChange : Obligations.ParametersNeverChange := by
  unfold Obligations.ParametersNeverChange
  intro s t h
  cases step_shape h with
  | stays _ ht => rw [ht]
  | session gap rest _ _ ht => rw [ht, newSession_cfg, takeInput_cfg]
  | ran gap rest e i _ _ _ hx => rw [(exec_callsFollow hx).cfg, takeInput_cfg]

end Sys2Proof.Machine
end

section
/-! PROOF. The encodings (O1, O2, O4, O5). A wire command decodes as `decodeFrame_frameOf` says, a request by its code; what a
frame decodes to is said by `frameOf_of_decodeFrame`. -/

namespace Sys2Proof

open Sys2Proof.Machine

/-- A wire command decodes from its frame: the opcode selects its entry, and its operands have the format of the entry. -/
theorem decode_encode_command {cat : Catalog} {c : Cmd} {arg0 arg1 : Option Word} (h : cat.opcodesDistinct = true)
    (hf : (cat.entry c).fits arg0 arg1 = true) : decode cat (encode cat (c.command arg0 arg1)) = .ok (c.command arg0 arg1) := by
  rw [encode_command]
  exact decodeFrame_frameOf (ofOpcode_entry h c) hf

/-- A request decodes from its triple: R57 gives each a code of its own, and the codes from `0x18` on are reserved. -/
theorem decode_encode_request {cat : Catalog} {i : Instr} (hr : i.wire = none) (hw : i.wellFormed cat = true) :
    decode cat (encode cat i) = .ok i := by
  cases i with
  | reserved code => exact congrArg Except.ok (decodeRequest_reserved 0 0 (of_decide_eq_true hw))
  | _ => first | rfl | cases hr

/-- Settles O1: a wire command by its frame, every other instruction by its request triple. -/
theorem decodeEncodeRoundTrip : Obligations.DecodeEncodeRoundTrip := by
  unfold Obligations.DecodeEncodeRoundTrip
  intro cat i hd hw
  rcases command_or_request i with ⟨c, arg0, arg1, rfl⟩ | ⟨hr, -⟩
  · exact decode_encode_command hd (by rwa [wellFormed_command] at hw)
  · exact decode_encode_request hr hw

/-- Settles O2: a frame that decodes is the frame of a catalog command in the format of its entry. -/
theorem acceptedFrameReencodes : Obligations.AcceptedFrameReencodes := by
  unfold Obligations.AcceptedFrameReencodes
  intro cat bytes i h
  obtain ⟨c, arg0, arg1, rfl, hf, rfl⟩ := frameOf_of_decodeFrame h
  refine ⟨encode_command cat c arg0 arg1, c, argWords arg0 arg1, wire_command c arg0 arg1, rfl, ?_⟩
  rw [frameOf_length, (CatalogEntry.fits_words hf).1]

/-- Settles O4: the decoder is total on triples; a request is well formed, and so is what a frame decodes to. -/
theorem decodedInstructionIsWellFormed : Obligations.DecodedInstructionIsWellFormed := by
  unfold Obligations.DecodedInstructionIsWellFormed
  refine ⟨fun cat op a0 a1 => ⟨_, rfl⟩, fun cat e i h => ?_⟩
  cases e with
  | request op a0 a1 =>
    cases h
    exact decodeRequest_wellFormed cat op a0 a1
  | frame bytes =>
    obtain ⟨c, arg0, arg1, rfl, hf, -⟩ := frameOf_of_decodeFrame h
    rw [wellFormed_command, hf]

/-- Settles O5: the decoder is run on each of the nine words. -/
theorem specWordsDecode : Obligations.SpecWordsDecode := by
  unfold Obligations.SpecWordsDecode
  decide +kernel

end Sys2Proof
end

section
/-! PROOF. The wait (O19). A sleep asks for what is left of the wait, and the last one takes at least that long; a clock of 64
bits does not wrap within one wait, which is shorter than `2 ^ 32`. -/

namespace Sys2Proof.Machine

theorem elapsed_toNat (s : State) : (elapsed s).toNat = (BitVec.ofNat 64 s.env.now - s.tIssue).toNat := rfl

/-- Time that passes is elapsed time, as long as the 64-bit difference does not wrap (R182). -/
theorem elapsed_after {now d : Nat} {issue : BitVec 64} (h : (BitVec.ofNat 64 now - issue).toNat + d < 2 ^ 64) :
    (BitVec.ofNat 64 (now + d) - issue).toNat = (BitVec.ofNat 64 now - issue).toNat + d := by
  have hsum : BitVec.ofNat 64 (now + d) - issue = BitVec.ofNat 64 now - issue + BitVec.ofNat 64 d := by
    rw [BitVec.ofNat_add, BitVec.sub_eq_add_neg, BitVec.sub_eq_add_neg]
    ac_rfl
  rw [hsum, BitVec.toNat_add, BitVec.toNat_ofNat, Nat.mod_eq_of_lt (a := d) (by omega), Nat.mod_eq_of_lt h]

/-- What is left of the wait at a time. -/
def waitLeft (s : State) (time : Nat) : Nat := s.tWait.toNat - (BitVec.ofNat 64 time - s.tIssue).toNat

/-- Sleeping for what is left of the wait ends with the wait elapsed, each sleep asking for what is left of it then. -/
theorem sleepLoop_waits (ds : List Nat) : ∀ s : State, (elapsed s).toNat ≤ s.tWait.toNat →
    s.tWait.toNat ≤ (elapsed (sleepLoop (waitLeft s s.env.now) ds s)).toNat ∧
    ∃ slept, (sleepLoop (waitLeft s s.env.now) ds s).env.trace = s.env.trace ++ slept ∧
      ∀ e ∈ slept, e.call = .sleep (waitLeft s e.time) := by
  induction ds with
  | nil =>
    intro s hle
    have hw := s.tWait.isLt
    have ho := (Config.freeOversleep s.env.calls).isLt
    have hd : waitLeft s s.env.now = s.tWait.toNat - (elapsed s).toNat := rfl
    refine ⟨?_, [⟨s.env.now, s.txn, .sleep (waitLeft s s.env.now)⟩], rfl, by simp⟩
    have hnw : (elapsed s).toNat + (waitLeft s s.env.now + (Config.freeOversleep s.env.calls).toNat) < 2 ^ 64 := by omega
    have he : (elapsed (sleepLoop (waitLeft s s.env.now) [] s)).toNat =
        (elapsed s).toNat + (waitLeft s s.env.now + (Config.freeOversleep s.env.calls).toNat) := elapsed_after hnw
    omega
  | cons d ds ih =>
    intro s hle
    unfold sleepLoop
    split
    next hover =>
      exact ⟨of_decide_eq_true hover, [⟨s.env.now, s.txn, .sleep (waitLeft s s.env.now)⟩], rfl, by simp⟩
    next hover =>
      have hlt : (elapsed (sleepCall (waitLeft s s.env.now) d s)).toNat < s.tWait.toNat :=
        Nat.not_le.1 fun h => hover (decide_eq_true h)
      obtain ⟨hend, slept, htr, hs⟩ := ih (sleepCall (waitLeft s s.env.now) d s) (Nat.le_of_lt hlt)
      refine ⟨hend, ⟨s.env.now, s.txn, .sleep (waitLeft s s.env.now)⟩ :: slept, htr.trans (by simp), ?_⟩
      intro e he
      rcases List.mem_cons.1 he with rfl | he
      · rfl
      · exact hs e he

/-- The wait that follows an issue. -/
theorem waitPath_waits {s : State} (h : s.tIssue = BitVec.ofNat 64 s.env.now) :
    s.tWait.toNat ≤ (BitVec.ofNat 64 (waitPath s).env.now - s.tIssue).toNat ∧
    ∃ slept, (waitPath s).env.trace = s.env.trace ++ slept ∧ ∀ e ∈ slept, e.call = .sleep (waitLeft s e.time) := by
  have hz : (elapsed (s.setTxn .wait)).toNat = 0 := by rw [elapsed_toNat]; simp [h]
  have hl : s.tWait.toNat = waitLeft (s.setTxn .wait) s.env.now := by simp [waitLeft, h]
  have hwp : waitPath s = sleepLoop (waitLeft (s.setTxn .wait) (s.setTxn .wait).env.now) s.env.sleeps (s.setTxn .wait) := by
    unfold waitPath
    rw [hl]
    rfl
  obtain ⟨hend, hslept⟩ := sleepLoop_waits s.env.sleeps (s.setTxn .wait) (by omega)
  rw [← hwp] at hend hslept
  refine ⟨?_, hslept⟩
  rw [elapsed_toNat, waitPath_eq] at hend
  exact hend

/-- Settles O19: what `waitPath_env` says of the environment, and what each sleep asks for. -/
theorem waitPathHoldsTheWait : Obligations.WaitPathHoldsTheWait := by
  unfold Obligations.WaitPathHoldsTheWait
  intro s h
  obtain ⟨hhost, hwrites, hreads, hnow, slept, htr, hne, hs⟩ := waitPath_env s
  obtain ⟨hend, slept', htr', hs'⟩ := waitPath_waits h
  obtain rfl : slept = slept' := List.append_cancel_left (htr.symm.trans htr')
  exact ⟨slept, hend, waitPath_eq s, hhost, hwrites, hreads, hnow, htr, hne, fun e he => ⟨(hs e he).1, hs' e he⟩⟩

end Sys2Proof.Machine
end

section
/-! PROOF. What an instruction can do, in two halves that the statements about all instructions are read off: what it does at
the ports and to the registers of the protocol engine (`Ports`), and how it ends and what it does to the session (`Ended`). -/

namespace Sys2Proof.Machine

/-! ### The registers of the protocol engine -/

/-- The registers the protocol engine works in (R13, R18 to R20), with the parameters and the environment. -/
structure Traffic where
  cfg     : Params
  pendCmd : Cmd
  tIssue  : BitVec 64
  tWait   : BitVec 32
  arg0    : Word
  arg1    : Word
  narg    : BitVec 2
  txbuf   : List Byte
  rxbuf   : List Byte
  crcReg  : Byte
  env     : Env

def State.traffic (s : State) : Traffic :=
  { cfg := s.cfg, pendCmd := s.pendCmd, tIssue := s.tIssue, tWait := s.tWait, arg0 := s.arg0, arg1 := s.arg1,
    narg := s.narg, txbuf := s.txbuf, rxbuf := s.rxbuf, crcReg := s.crcReg, env := s.env }

@[simp] theorem ret_traffic (ws : List Word) (s : State) : (ret ws s).traffic = s.traffic := by
  obtain ⟨_, _, _, h⟩ := ret_eq ws s
  rw [h]
  rfl

@[simp] theorem raise_traffic (isRead : Bool) (e : Error) (s : State) : (raise isRead e s).traffic = s.traffic := by
  rw [raise_eq]
  rfl

@[simp] theorem readDone_traffic (k : Kind) (s : State) : (readDone k s).traffic = s.traffic := ret_traffic _ _

@[simp] theorem probeDone_traffic (s : State) : (probeDone s).traffic = s.traffic := by
  unfold probeDone
  rw [ret_traffic]
  split <;> rfl

/-- The last rule lines of an instruction in mode `FULL` leave the registers of the engine. -/
@[simp] theorem postOf_traffic (i : Instr) (s : State) : (postOf i s).traffic = s.traffic := by
  cases i
  case probe => exact probeDone_traffic s
  case getSerialId | getFeatureSetVersion | iaqInit | getIaqBaseline | setIaqBaseline | getTvocInceptiveBaseline
      | setTvocBaseline | setAbsoluteHumidity | measureTest =>
    exact ret_traffic _ _
  all_goals rfl

/-- The session that the last rule lines of an instruction in mode `FULL` make of the session `x` and the first two words of
the response (R120 to R132). -/
def sessionAfter (i : Instr) (x : Session) (w0 w1 : Word) : Session :=
  match i with
  | .probe => { x with phase := if x.phase = 0 then 1 else x.phase, fsReg := w0, fsValid := true }
  | .getFeatureSetVersion => { x with fsReg := w0, fsValid := true }
  | .iaqInit => { x with phase := 2 }
  | .getIaqBaseline => { x with baseReg := baselineReg w0 w1, baseValid := true }
  | .setIaqBaseline a0 a1 => { x with baseReg := baselineReg (a0Word a0) a1, baseValid := true }
  | .measureTest => { x with b := w0 == x.cfg.testPass }
  | .cmdIaqInit _ _ | .cmdMeasureIaq _ _ | .cmdGetIaqBaseline _ _ | .cmdSetIaqBaseline _ _ | .cmdSetAbsoluteHumidity _ _
  | .cmdMeasureTest _ _ | .cmdGetFeatureSet _ _ | .cmdMeasureRaw _ _ | .cmdGetTvocInceptiveBaseline _ _ | .cmdSetTvocBaseline _ _
  | .cmdGetSerialId _ _ | .getSerialId | .getTvocInceptiveBaseline | .setTvocBaseline _ | .setAbsoluteHumidity _ | .measureIaq
  | .readIaq | .measureIaqBlockingRead | .measureTvoc | .readTvoc | .measureTvocBlockingRead | .measureCo2Eq | .readCo2Eq
  | .measureCo2EqBlockingRead | .measureRaw | .readRaw | .measureRawBlockingRead | .crcCompute _ | .crcVerify _ _
  | .reserved _ => x

theorem probeDone_session (s : State) : (probeDone s).session = sessionAfter .probe s.session s.word0 s.word1 := by
  unfold probeDone
  rw [ret_session]
  simp only [sessionAfter]
  split
  next h =>
    rw [if_pos (show s.session.phase = 0 from h)]
    rfl
  next h =>
    rw [if_neg (show ¬s.session.phase = 0 from h)]
    rfl

@[simp] theorem postOf_session (i : Instr) (s : State) :
    (postOf i s).session = sessionAfter i s.session s.word0 s.word1 := by
  cases i
  case probe => exact probeDone_session s
  case getSerialId | getFeatureSetVersion | iaqInit | getIaqBaseline | setIaqBaseline | getTvocInceptiveBaseline
      | setTvocBaseline | setAbsoluteHumidity | measureTest =>
    exact ret_session _ _
  all_goals rfl

/-! ### The result words -/

/-- The result words that the last rule lines of an instruction in mode `FULL` leave. -/
def resultOf : Instr → State → List Word
  | .getSerialId, s => [s.word0, s.word1, s.word2]
  | .getIaqBaseline, s => [s.word0, s.word1]
  | .getFeatureSetVersion, s | .getTvocInceptiveBaseline, s | .measureTest, s => [s.word0]
  | .cmdIaqInit _ _, s | .cmdMeasureIaq _ _, s | .cmdGetIaqBaseline _ _, s | .cmdSetIaqBaseline _ _, s
  | .cmdSetAbsoluteHumidity _ _, s | .cmdMeasureTest _ _, s | .cmdGetFeatureSet _ _, s | .cmdMeasureRaw _ _, s
  | .cmdGetTvocInceptiveBaseline _ _, s | .cmdSetTvocBaseline _ _, s | .cmdGetSerialId _ _, s =>
    [s.word0, s.word1, s.word2].take s.wcount.toNat
  | .probe, _ | .iaqInit, _ | .setIaqBaseline _ _, _ | .setTvocBaseline _, _ | .setAbsoluteHumidity _, _ | .measureIaq, _
  | .readIaq, _ | .measureIaqBlockingRead, _ | .measureTvoc, _ | .readTvoc, _ | .measureTvocBlockingRead, _
  | .measureCo2Eq, _ | .readCo2Eq, _ | .measureCo2EqBlockingRead, _ | .measureRaw, _ | .readRaw, _
  | .measureRawBlockingRead, _ | .crcCompute _, _ | .crcVerify _ _, _ | .reserved _, _ => []

/-- The last rule lines of an instruction in mode `FULL` are a return of its result words, or the end of a wire command. -/
theorem postOf_returns {i : Instr} {c : Cmd} (hi : i.issues = some c)
    (hk : ∀ k : Kind, i ≠ k.measureRequest ∧ i ≠ k.blockingRequest) (s : State) :
    (∃ u, postOf i s = ret (resultOf i s) u) ∨
      postOf i s = retWire s ∧ resultOf i s = [s.word0, s.word1, s.word2].take s.wcount.toNat := by
  cases i
  case probe | getSerialId | getFeatureSetVersion | iaqInit | getIaqBaseline | setIaqBaseline | getTvocInceptiveBaseline
      | setTvocBaseline | setAbsoluteHumidity | measureTest =>
    exact .inl ⟨_, rfl⟩
  case measureIaq => exact absurd rfl (hk .iaq).1
  case measureTvoc => exact absurd rfl (hk .tvoc).1
  case measureCo2Eq => exact absurd rfl (hk .co2eq).1
  case measureRaw => exact absurd rfl (hk .raw).1
  case measureIaqBlockingRead => exact absurd rfl (hk .iaq).2
  case measureTvocBlockingRead => exact absurd rfl (hk .tvoc).2
  case measureCo2EqBlockingRead => exact absurd rfl (hk .co2eq).2
  case measureRawBlockingRead => exact absurd rfl (hk .raw).2
  case readIaq | readTvoc | readCo2Eq | readRaw | crcCompute | crcVerify | reserved => cases hi
  all_goals exact .inr ⟨rfl, rfl⟩

theorem resultOf_length (i : Instr) (s : State) : (resultOf i s).length ≤ 3 := by
  have hwire : ([s.word0, s.word1, s.word2].take s.wcount.toNat).length ≤ 3 := List.length_take_le' _ _
  cases i
  case cmdIaqInit | cmdMeasureIaq | cmdGetIaqBaseline | cmdSetIaqBaseline | cmdSetAbsoluteHumidity | cmdMeasureTest
      | cmdGetFeatureSet | cmdMeasureRaw | cmdGetTvocInceptiveBaseline | cmdSetTvocBaseline | cmdGetSerialId =>
    exact hwire
  all_goals simp [resultOf]

/-! ### The read path -/

/-- What `RXBUF` holds after an answer to a read: its first nine bytes, or what it held where no bytes came (log 17). -/
def answerKept (r : ReadResult) (old : List Byte) : List Byte :=
  match r with
  | .bytes bs => bs.take 9
  | .nack => old
  | .ioerr => old

/-- Verification and the writing of the words leave the registers of the engine but for `CRC_REG`. -/
theorem verifyPath_traffic (s : State) :
    (verifyPath s).final.traffic = { s.traffic with crcReg := (verifyPath s).final.crcReg } := by
  unfold verifyPath
  cases h : verifyTriples 0 s.rxbuf (s.setTxn .verify) with
  | ok s₁ =>
    obtain ⟨_, _, _, hw⟩ := writeWords_eq (wordsOf s.rxbuf) s₁
    simp only [Run.andThen, Run.final]
    rw [hw, verifyTriples_ok _ _ _ h]
    rfl
  | err e s₁ =>
    simp only [Run.andThen, Run.final]
    rw [(verifyTriples_err _ _ _ h).1]
    rfl

/-- One read is made, its answer stands in `RXBUF`, and nothing else of the engine but `CRC_REG` is written. -/
theorem receive_traffic (m : Nat) (s : State) :
    (receive m s).final.traffic =
      { s.traffic with
        rxbuf := answerKept (nextRead s).result s.rxbuf, crcReg := (receive m s).final.crcReg,
        env := (busRead (3 * m) s).env } := by
  unfold receive
  cases h : (nextRead s).result with
  | nack => rfl
  | ioerr => rfl
  | bytes bs =>
    simp only
    split
    · rw [verifyPath_traffic]
      rfl
    · rfl

/-- What the read path of `c` does: nothing for a command without a response (R105), else one read. -/
inductive ReadPart (c : Cmd) (s t : State) : Prop where
  | none (hn : (s.cfg.catalog.entry c).nResp.val = 0) (ht : t.traffic = s.traffic)
  | read (hn : (s.cfg.catalog.entry c).nResp.val ≠ 0)
      (ht : t.traffic =
        { s.traffic with
          rxbuf := answerKept (nextRead s).result s.rxbuf, crcReg := t.crcReg,
          env := (busRead (3 * (s.cfg.catalog.entry c).nResp.val) (s.setTxn .read)).env })
      (hc : t.crcReg ≠ s.crcReg →
        ∃ bs, (nextRead s).result = .bytes bs ∧ bs.length = 3 * (s.cfg.catalog.entry c).nResp.val)

theorem readPath_readPart (c : Cmd) (s : State) : ReadPart c s (readPath c s).final := by
  rw [readPath_def]
  split
  · exact .none ‹_› rfl
  · refine .read ‹_› (receive_traffic _ _) fun hne => ?_
    refine receive_crc (s := s.setTxn .read) ?_ hne
    cases receive (s.cfg.catalog.entry c).nResp.val (s.setTxn .read) with
    | ok s' => exact .inl rfl
    | err e s' => exact .inr ⟨e, rfl⟩

/-- Only the registers of the engine matter after the read path. -/
theorem ReadPart.congr {c : Cmd} {s t u : State} (h : ReadPart c s t) (hu : u.traffic = t.traffic) : ReadPart c s u := by
  have hcrc : u.crcReg = t.crcReg := congrArg Traffic.crcReg hu
  cases h with
  | none hn ht => exact .none hn (hu.trans ht)
  | read hn ht hc => exact .read hn (by rw [hu, ht, hcrc]) (hcrc ▸ hc)

/-- The read path keeps the session. -/
theorem readPath_session (c : Cmd) (s : State) : (readPath c s).final.session = s.session := by
  cases h : readPath c s with
  | ok s' =>
    rcases readPath_ok h with ⟨-, rfl⟩ | ⟨-, hr⟩
    · rfl
    · rw [(receive_ok hr).1]
      rfl
  | err e s' =>
    rw [(receive_err (readPath_err h).2).2.1]
    rfl

/-- A read path that raises has stage 2 and has written no word (R106, R170). -/
theorem readPath_err_keeps {c : Cmd} {s s' : State} {e : Error} (h : readPath c s = .err e s') :
    e.stageCode = 2 ∧ s'.session = s.session ∧ s'.word0 = s.word0 ∧ s'.word1 = s.word1 ∧ s'.word2 = s.word2 := by
  obtain ⟨hst, hs, -⟩ := receive_err (readPath_err h).2
  rw [hs]
  exact ⟨hst, rfl, rfl, rfl, rfl⟩

theorem waitPath_keeps (s : State) :
    (waitPath s).session = s.session ∧ (waitPath s).word0 = s.word0 ∧ (waitPath s).word1 = s.word1 ∧
      (waitPath s).word2 = s.word2 := by
  rw [waitPath_eq]
  exact ⟨rfl, rfl, rfl, rfl⟩

theorem waitPath_traffic (s : State) : (waitPath s).traffic = { s.traffic with env := (waitPath s).env } := by
  rw [waitPath_eq]
  rfl

/-! ### What an instruction does at the ports -/

/-- The request ends well, or with an error of the read path. -/
def EndsAfterRead (t : State) : Prop := t.status = 0 ∨ errStage t.status = 2

/-- What an instruction does at the ports and to the registers of the protocol engine. -/
inductive Ports (i : Instr) (s t : State) : Prop where
  /-- Refused before any bus I/O, or a CRC request. -/
  | silent (hp : t.phase = s.phase ∧ t.kind = s.kind) (ht : t.traffic = { s.traffic with crcReg := t.crcReg })
      (hc : t.crcReg ≠ s.crcReg → (∃ a0, i = .crcCompute a0) ∨ ∃ a0 a1, i = .crcVerify a0 a1)
  /-- The write failed. -/
  | unacknowledged (c : Cmd) (s' : State) (f : CommFailure) (hi : i.issues = some c) (ha : admitCmd c (begin s) = .pass)
      (hs : Assembled c (begin s) s') (hw : (nextWrite s').result ≠ .ack) (ht : t.traffic = (notIssued s').traffic)
      (hst : t.status = statusOf (.commWrite f))
  /-- A split measure. -/
  | started (k : Kind) (s' : State) (hi : i = k.measureRequest) (ha : admitCmd k.cmd (begin s) = .pass)
      (hs : Assembled k.cmd (begin s) s') (hw : (nextWrite s').result = .ack)
      (ht : t.traffic = (issued k.cmd s').traffic) (hst : t.status = 0)
  /-- Write, wait, and read. -/
  | exchanged (c : Cmd) (s' u : State) (hi : i.issues = some c) (hk : ∀ k : Kind, i ≠ k.measureRequest)
      (ha : admitCmd c (begin s) = .pass)
      (hs : Assembled c (begin s) s') (hw : (nextWrite s').result = .ack) (hu : u.traffic = (issued c s').traffic)
      (hr : ReadPart c (waitPath u) t) (hst : EndsAfterRead t)
  /-- A split read. -/
  | wasRead (k : Kind) (hi : i = k.readRequest) (ha : readAdmit k (begin s) = .pass) (hr : ReadPart k.cmd (begin s) t)
      (hst : EndsAfterRead t)

@[simp] theorem issues_measureRequest (k : Kind) : k.measureRequest.issues = some k.cmd := by cases k <;> rfl

@[simp] theorem issues_blockingRequest (k : Kind) : k.blockingRequest.issues = some k.cmd := by cases k <;> rfl

theorem measureRequest_injective {k k' : Kind} (h : k.measureRequest = k'.measureRequest) : k = k' := by
  cases k <;> cases k' <;> first | rfl | cases h

/-- A request of one of the three shapes of a kind is of no other. -/
theorem measureRequest_ne (k k' : Kind) :
    k.measureRequest ≠ k'.readRequest ∧ k.measureRequest ≠ k'.blockingRequest := by
  cases k <;> cases k' <;> simp [Kind.measureRequest, Kind.readRequest, Kind.blockingRequest]

/-- Every instruction in mode `FULL` ends its last rule lines with `OK`, in `IDLE`. -/
theorem postOf_status {i : Instr} {c : Cmd} (hi : i.issues = some c)
    (hk : ∀ k : Kind, i ≠ k.measureRequest ∧ i ≠ k.blockingRequest ∧ i ≠ k.readRequest) (s : State) :
    (postOf i s).status = 0 ∧ (postOf i s).txn = .idle := by
  rcases postOf_returns hi (fun k => ⟨(hk k).1, (hk k).2.1⟩) s with ⟨u, hu⟩ | ⟨hu, -⟩
  all_goals
    rw [hu]
    exact ⟨rfl, rfl⟩

/-- A raise of the read path ends a request after its read. -/
theorem endsAfterRead_raise {c : Cmd} {u s' v : State} {e : Error} (isRead : Bool) (h : readPath c u = .err e s') :
    EndsAfterRead (raise isRead e v) := by
  right
  rw [raise_status, errStage_statusOf, (readPath_err_keeps h).1]

theorem readPart_of_ok {c : Cmd} {u s' t : State} (h : readPath c u = .ok s') (ht : t.traffic = s'.traffic) :
    ReadPart c u t := by
  have hp := readPath_readPart c u
  rw [h] at hp
  exact hp.congr ht

theorem readPart_of_err {c : Cmd} {u s' t : State} {e : Error} (h : readPath c u = .err e s') (ht : t.traffic = s'.traffic) :
    ReadPart c u t := by
  have hp := readPath_readPart c u
  rw [h] at hp
  exact hp.congr ht

/-- A request that only computes a checksum and returns makes no port call. -/
theorem ports_of_ret {i : Instr} {s t u : State} {ws : List Word}
    (hc : t.crcReg ≠ s.crcReg → (∃ a0, i = .crcCompute a0) ∨ ∃ a0 a1, i = .crcVerify a0 a1) (ht : t = ret ws u)
    (hp : u.phase = s.phase ∧ u.kind = s.kind) (hu : u.traffic = { s.traffic with crcReg := u.crcReg }) : Ports i s t := by
  have hse : t.session = u.session := by rw [ht, ret_session]
  have htr : t.traffic = u.traffic := by rw [ht, ret_traffic]
  have hcrc : t.crcReg = u.crcReg := congrArg Traffic.crcReg htr
  have hkept : t.phase = s.phase ∧ t.kind = s.kind :=
    ⟨(congrArg Session.phase hse).trans hp.1, (congrArg Session.kind hse).trans hp.2⟩
  exact .silent hkept (by rw [htr, hu, hcrc]) hc

theorem ports_of_full {i : Instr} {c : Cmd} {s s' : State} (hi : i.issues = some c)
    (hk : ∀ k : Kind, i ≠ k.measureRequest ∧ i ≠ k.blockingRequest ∧ i ≠ k.readRequest)
    (ha : admitCmd c (begin s) = .pass) (hs : Assembled c (begin s) s') :
    Ports i s ((runFull c s').close false (postOf i)) := by
  have hm : ∀ k : Kind, i ≠ k.measureRequest := fun k => (hk k).1
  rcases runFull_cases c s' with ⟨f, hw, hr⟩ | ⟨hw, ⟨e, u, hp, hr⟩ | ⟨u, hp, hr⟩⟩
  all_goals rw [hr, Run.close]
  · exact .unacknowledged c s' f hi ha hs hw (raise_traffic _ _ _) (raise_status _ _ _)
  · exact .exchanged c s' _ hi hm ha hs hw rfl (readPart_of_err hp (raise_traffic _ _ _)) (endsAfterRead_raise false hp)
  · exact .exchanged c s' _ hi hm ha hs hw rfl (readPart_of_ok hp (postOf_traffic _ _)) (.inl (postOf_status hi hk _).1)

theorem ports_of_started {k : Kind} {s s' : State} (ha : admitCmd k.cmd (begin s) = .pass)
    (hs : Assembled k.cmd (begin s) s') :
    Ports k.measureRequest s ((runWriteOnly k.cmd s').close false fun s => ret [] (inFlight k s)) := by
  rcases runWriteOnly_cases k.cmd s' with ⟨f, hw, hr⟩ | ⟨hw, hr⟩
  all_goals rw [hr, Run.close]
  · exact .unacknowledged k.cmd s' f (issues_measureRequest k) ha hs hw (raise_traffic _ _ _) (raise_status _ _ _)
  · exact .started k s' rfl ha hs hw (ret_traffic _ _) (ret_status _ _)

theorem ports_of_wasRead {k : Kind} {s : State} (ha : readAdmit k (begin s) = .pass) :
    Ports k.readRequest s ((runReadOnly k.cmd (begin s)).close true (readDone k)) := by
  rcases runReadOnly_cases k.cmd (begin s) with ⟨e, u, hp, hr⟩ | ⟨u, hp, hr⟩
  all_goals rw [hr, Run.close]
  · exact .wasRead k rfl ha (readPart_of_err hp (raise_traffic _ _ _)) (endsAfterRead_raise true hp)
  · exact .wasRead k rfl ha (readPart_of_ok hp (readDone_traffic _ _)) (.inl rfl)

theorem ports_of_blocked {k : Kind} {s s' : State} (ha : admitCmd k.cmd (begin s) = .pass)
    (hs : Assembled k.cmd (begin s) s') : Ports k.blockingRequest s ((runBlocking k s').close true (readDone k)) := by
  have hi := issues_blockingRequest k
  have hm : ∀ k' : Kind, k.blockingRequest ≠ k'.measureRequest := fun k' => (measureRequest_ne k' k).2.symm
  rcases runBlocking_cases k s' with ⟨f, hw, hr⟩ | ⟨hw, ⟨e, u, hp, hr⟩ | ⟨u, hp, hr⟩⟩
  all_goals rw [hr, Run.close]
  · exact .unacknowledged k.cmd s' f hi ha hs hw (raise_traffic _ _ _) (raise_status _ _ _)
  · exact .exchanged k.cmd s' (issuedInFlight k s') hi hm ha hs hw rfl (readPart_of_err hp (raise_traffic _ _ _))
      (endsAfterRead_raise true hp)
  · exact .exchanged k.cmd s' (issuedInFlight k s') hi hm ha hs hw rfl (readPart_of_ok hp (readDone_traffic _ _)) (.inl rfl)

/-- Whatever instruction runs, it does one of these at the ports. -/
theorem exec_ports {i : Instr} {s t : State} (h : exec i s = .next t) : Ports i s t := by
  cases exec_shape h with
  | refused e _ _ ht =>
    subst ht
    exact .silent ⟨rfl, rfl⟩ rfl fun hne => absurd rfl hne
  | crcCompute a0 hi ht => exact ports_of_ret (fun _ => .inl ⟨a0, hi⟩) ht ⟨rfl, rfl⟩ rfl
  | crcVerify a0 a1 hi ht => exact ports_of_ret (fun _ => .inr ⟨a0, a1, hi⟩) ht ⟨rfl, rfl⟩ rfl
  | full c s' hi hk ha hs ht => exact ht ▸ ports_of_full hi hk ha hs
  | started k s' hi ha hs ht => exact hi ▸ ht ▸ ports_of_started ha hs
  | wasRead k hi ha ht => exact hi ▸ ht ▸ ports_of_wasRead ha
  | blocked k s' hi ha hs ht => exact hi ▸ ht ▸ ports_of_blocked ha hs

/-! ### How an instruction ends -/

/-- A split read or a blocking read: its read-path errors end the measurement (R156). -/
def EndsMeasurement (i : Instr) : Prop := ∃ k : Kind, i = k.readRequest ∨ i = k.blockingRequest

/-- How an instruction ends, and what it does to the session. -/
inductive Ended (i : Instr) (s t : State) : Prop where
  /-- R176, R178: an error was raised; an error of the read path ends a measurement. -/
  | failed (e : Error) (ht : failed t (statusOf e) { s.session with phase := t.phase })
      (hw : t.word0 = s.word0 ∧ t.word1 = s.word1 ∧ t.word2 = s.word2)
      (hp : t.phase = s.phase ∧ (e.stageCode ≠ 2 ∨ ¬EndsMeasurement i) ∨
        t.phase = 2 ∧ e.stageCode = 2 ∧ EndsMeasurement i ∧
          ((∃ k : Kind, i = k.readRequest) ∧ s.phase = 3 ∨ s.phase = 2))
  | crcCompute (a0 : BitVec 32) (hi : i = .crcCompute a0) (ht : completed t [t.word0] s.session)
  | crcVerify (a0 : BitVec 32) (a1 : BitVec 16) (hi : i = .crcVerify a0 a1) (ht : completed t [] { s.session with b := t.b })
  /-- A transaction in mode `FULL` that kept the session up to its last rule lines. -/
  | full (c : Cmd) (u : State) (hi : i.issues = some c)
      (hk : ∀ k : Kind, i ≠ k.measureRequest ∧ i ≠ k.blockingRequest ∧ i ≠ k.readRequest)
      (ha : admitCmd c (begin s) = .pass) (hu : u.session = s.session) (ht : t = postOf i u)
  | started (k : Kind) (hi : i = k.measureRequest) (hp : s.phase = 2)
      (ht : completed t [] { s.session with phase := 3, kind := k })
  | wasRead (k : Kind) (ws : List Word) (hi : i = k.readRequest) (hp : s.phase = 3)
      (ht : completed t ws { s.session with phase := 2 })
  | blocked (k : Kind) (ws : List Word) (hi : i = k.blockingRequest) (hp : s.phase = 2)
      (ht : completed t ws { s.session with phase := 2, kind := k })

/-- A measurement is admitted only in `IAQInitialized`. -/
theorem phase_of_admit_measure {k : Kind} {s : State} (h : admitCmd k.cmd (begin s) = .pass) : s.phase = 2 := by
  obtain ⟨p, hp, -, hm, -⟩ := admit_pass h
  have hp2 : p = .iaqInitialized := by cases k <;> simpa [Kind.cmd, Cmd.allowedPhase] using hm
  rw [hp2] at hp
  exact hp

theorem decodeResult_length (k : Kind) (s : State) : (decodeResult k s).length ≤ 3 := by cases k <;> simp [decodeResult]

/-- R144: a read ends with its decoded words in `IAQInitialized`. -/
theorem readDone_completed (k : Kind) (s : State) :
    completed (readDone k s) (decodeResult k s) { s.session with phase := 2 } :=
  completed_ret (decodeResult_length k s) ((s.setPhase .resultReady).setPhase .iaqInitialized)

/-- An error that is not the end of a measurement keeps the session. -/
theorem ended_of_raise {i : Instr} {s u : State} {e : Error} {isRead : Bool} (hr : isRead = false ∨ e.stageCode ≠ 2)
    (hi : e.stageCode ≠ 2 ∨ ¬EndsMeasurement i) (hse : u.session = s.session)
    (hw : u.word0 = s.word0 ∧ u.word1 = s.word1 ∧ u.word2 = s.word2) : Ended i s (raise isRead e u) := by
  have hif : (isRead && e.stageCode == 2) = false := by rcases hr with rfl | h <;> simp_all
  have heq := raise_eq isRead e u
  rw [hif] at heq
  rw [heq]
  exact .failed e ⟨rfl, rfl, by rw [← hse]; rfl, rfl⟩ hw (.inl ⟨congrArg Session.phase hse, hi⟩)

/-- R156: an error of the read path ends a measurement in `IAQInitialized`. -/
theorem ended_of_raise_read {i : Instr} {s u : State} {e : Error} (he : e.stageCode = 2) (hi : EndsMeasurement i)
    (hp : (∃ k : Kind, i = k.readRequest) ∧ s.phase = 3 ∨ s.phase = 2)
    (hse : { u.session with phase := s.phase } = s.session)
    (hw : u.word0 = s.word0 ∧ u.word1 = s.word1 ∧ u.word2 = s.word2) : Ended i s (raise true e u) := by
  have hif : (true && e.stageCode == 2) = true := by simp [he]
  have heq := raise_eq true e u
  rw [hif] at heq
  have hse2 : ({ u.session with phase := 2 } : Session) = { s.session with phase := 2 } := by rw [← hse]
  rw [heq]
  exact .failed e ⟨rfl, rfl, hse2, rfl⟩ hw (.inr ⟨rfl, he, hi, hp⟩)

/-- What assembling a frame keeps of the result words. -/
theorem Assembled.words {c : Cmd} {s s' : State} (h : Assembled c (begin s) s') :
    s'.word0 = s.word0 ∧ s'.word1 = s.word1 ∧ s'.word2 = s.word2 := by
  rw [h.rest]
  exact ⟨rfl, rfl, rfl⟩

theorem ended_of_full {i : Instr} {c : Cmd} {s s' : State} (hi : i.issues = some c)
    (hk : ∀ k : Kind, i ≠ k.measureRequest ∧ i ≠ k.blockingRequest ∧ i ≠ k.readRequest)
    (ha : admitCmd c (begin s) = .pass) (hs : Assembled c (begin s) s') :
    Ended i s ((runFull c s').close false (postOf i)) := by
  obtain ⟨-, -, hse, -⟩ := hs.keeps
  obtain ⟨hw0, hw1, hw2⟩ := hs.words
  obtain ⟨wse, w0, w1, w2⟩ := waitPath_keeps (issued c s')
  have hm : ¬EndsMeasurement i := fun ⟨k, hk'⟩ => hk'.elim (hk k).2.2 (hk k).2.1
  rcases runFull_cases c s' with ⟨f, -, hr⟩ | ⟨-, ⟨e, u, hp, hr⟩ | ⟨u, hp, hr⟩⟩
  all_goals rw [hr, Run.close]
  · exact ended_of_raise (.inl rfl) (.inr hm) hse ⟨hw0, hw1, hw2⟩
  · obtain ⟨-, hu, h0, h1, h2⟩ := readPath_err_keeps hp
    exact ended_of_raise (.inl rfl) (.inr hm) (hu.trans (wse.trans hse))
      ⟨h0.trans (w0.trans hw0), h1.trans (w1.trans hw1), h2.trans (w2.trans hw2)⟩
  · have hu := readPath_session c (waitPath (issued c s'))
    rw [hp] at hu
    exact .full c (u.setTxn .idle) hi hk ha (hu.trans (wse.trans hse)) rfl

theorem ended_of_started {k : Kind} {s s' : State} (ha : admitCmd k.cmd (begin s) = .pass)
    (hs : Assembled k.cmd (begin s) s') :
    Ended k.measureRequest s ((runWriteOnly k.cmd s').close false fun s => ret [] (inFlight k s)) := by
  obtain ⟨-, -, hse, -⟩ := hs.keeps
  have hm : ¬EndsMeasurement k.measureRequest := fun ⟨k', h⟩ =>
    h.elim (measureRequest_ne k k').1 (measureRequest_ne k k').2
  rcases runWriteOnly_cases k.cmd s' with ⟨f, -, hr⟩ | ⟨-, hr⟩
  all_goals rw [hr, Run.close]
  · exact ended_of_raise (.inl rfl) (.inr hm) hse hs.words
  · refine .started k rfl (phase_of_admit_measure ha) ?_
    rw [← hse]
    exact completed_ret (by simp) _

theorem ended_of_wasRead {k : Kind} {s : State} (ha : readAdmit k (begin s) = .pass) :
    Ended k.readRequest s ((runReadOnly k.cmd (begin s)).close true (readDone k)) := by
  obtain ⟨hp3, -⟩ := readAdmit_pass ha
  rcases runReadOnly_cases k.cmd (begin s) with ⟨e, u, hp, hr⟩ | ⟨u, hp, hr⟩
  all_goals rw [hr, Run.close]
  · obtain ⟨he, hu, hw⟩ := readPath_err_keeps hp
    exact ended_of_raise_read he ⟨k, .inl rfl⟩ (.inl ⟨⟨k, rfl⟩, hp3⟩) (by rw [hu]; rfl) hw
  · have hu : (readPath k.cmd (begin s)).final.session = s.session := readPath_session k.cmd (begin s)
    rw [hp] at hu
    refine .wasRead k (decodeResult k (u.setTxn .idle)) rfl hp3 ?_
    rw [← hu]
    exact readDone_completed k (u.setTxn .idle)

theorem ended_of_blocked {k : Kind} {s s' : State} (ha : admitCmd k.cmd (begin s) = .pass)
    (hs : Assembled k.cmd (begin s) s') : Ended k.blockingRequest s ((runBlocking k s').close true (readDone k)) := by
  obtain ⟨-, -, hse, -⟩ := hs.keeps
  obtain ⟨hw0, hw1, hw2⟩ := hs.words
  obtain ⟨wse, w0, w1, w2⟩ := waitPath_keeps (issuedInFlight k s')
  have hfly : (issuedInFlight k s').session = { s.session with phase := 3, kind := k } := by rw [← hse]; rfl
  have hp2 := phase_of_admit_measure ha
  rcases runBlocking_cases k s' with ⟨f, -, hr⟩ | ⟨-, ⟨e, u, hp, hr⟩ | ⟨u, hp, hr⟩⟩
  all_goals rw [hr, Run.close]
  · have h1 : (Error.commWrite f).stageCode ≠ 2 := (by decide : (1 : BitVec 2) ≠ 2)
    exact ended_of_raise (.inr h1) (.inl h1) hse ⟨hw0, hw1, hw2⟩
  · obtain ⟨he, hu, h0, h1, h2⟩ := readPath_err_keeps hp
    have hkind : s'.kind = s.kind := congrArg Session.kind hse
    have hsess : ({ (u.setKind s'.kind).session with phase := s.phase } : Session) = s.session :=
      calc
        { (u.setKind s'.kind).session with phase := s.phase } = { u.session with kind := s'.kind, phase := s.phase } := rfl
        _ = s.session := by rw [hu, wse, hfly, hkind]; rfl
    exact ended_of_raise_read he ⟨k, .inr rfl⟩ (.inr hp2) hsess
      ⟨h0.trans (w0.trans hw0), h1.trans (w1.trans hw1), h2.trans (w2.trans hw2)⟩
  · have hu := readPath_session k.cmd (waitPath (issuedInFlight k s'))
    rw [hp] at hu
    have hu : u.session = { s.session with phase := 3, kind := k } := hu.trans (wse.trans hfly)
    have hdone := readDone_completed k (u.setTxn .idle)
    have hsess : (u.setTxn .idle).session = u.session := rfl
    rw [hsess, hu] at hdone
    exact .blocked k _ rfl hp2 hdone

/-- Whatever instruction runs, it ends in one of these ways. -/
theorem exec_ended {i : Instr} {s t : State} (h : exec i s = .next t) : Ended i s t := by
  cases exec_shape h with
  | refused e _ he ht =>
    have he2 : e.stageCode ≠ 2 := by rw [he]; decide
    exact .failed e (ht ▸ ⟨rfl, rfl, rfl, rfl⟩) (ht ▸ ⟨rfl, rfl, rfl⟩) (.inl ⟨ht ▸ rfl, .inl he2⟩)
  | crcCompute a0 hi ht => exact .crcCompute a0 hi (ht ▸ completed_ret (by simp) _)
  | crcVerify a0 a1 hi ht => exact .crcVerify a0 a1 hi (ht ▸ completed_ret (by simp) _)
  | full c s' hi hk ha hs ht => exact ht ▸ ended_of_full hi hk ha hs
  | started k s' hi ha hs ht => exact hi ▸ ht ▸ ended_of_started ha hs
  | wasRead k hi ha ht => exact hi ▸ ht ▸ ended_of_wasRead ha
  | blocked k s' hi ha hs ht => exact hi ▸ ht ▸ ended_of_blocked ha hs

end Sys2Proof.Machine
end

section
/-! PROOF. How instructions end: the phase table (O47), the writers of the session registers (O48), errors (O50), the status
(O51) and the end of a request (O54). Each is read off `Ended`. -/

namespace Sys2Proof.Machine

/-! ### What the host reads -/

theorem hostResponse_of_legal {s : State} (h : legalStatus s.status = true) :
    hostResponse s = .ok { status := s.status, words := [s.word0, s.word1, s.word2].take s.wcount.toNat, b := s.b } := if_pos h

/-- A completed request ended with `OK`. -/
theorem completed_status {t : State} {ws : List Word} {x : Session} (h : completed t ws x) : t.status = 0 := by
  obtain ⟨hr, -⟩ := h
  unfold hostResponse at hr
  split at hr
  · injection hr with hr
    exact congrArg Response.status hr
  · cases hr

/-- An instruction ends with `OK`, or with an error and no result word; either way in `IDLE`. -/
theorem Ended.status {i : Instr} {s t : State} (h : Ended i s t) :
    (t.status = 0 ∨ ∃ e, t.status = statusOf e ∧ t.wcount = 0) ∧ t.txn = .idle := by
  cases h with
  | failed e ht =>
    obtain ⟨hst, hwc, -, htxn⟩ := ht
    exact ⟨.inr ⟨e, hst, hwc⟩, htxn⟩
  | full c u hi hk _ _ ht =>
    obtain ⟨hst, htxn⟩ := postOf_status hi hk u
    exact ht ▸ ⟨.inl hst, htxn⟩
  | crcCompute _ _ ht | crcVerify _ _ _ ht | started _ _ _ ht | wasRead _ _ _ _ ht | blocked _ _ _ _ ht =>
    exact ⟨.inl (completed_status ht), ht.2.2⟩

theorem Ended.legal {i : Instr} {s t : State} (h : Ended i s t) : legalStatus t.status = true := by
  rcases h.status.1 with hst | ⟨e, hst, -⟩
  · rw [hst, legalStatus_zero]
  · rw [hst, legalStatus_statusOf]

/-- Settles O51: an instruction ends with `OK` or with the status of an error, and `WCOUNT` counts at most three words. -/
theorem statusIsAlwaysLegal : Obligations.StatusIsAlwaysLegal := by
  unfold Obligations.StatusIsAlwaysLegal
  intro i s t h
  have hl := (exec_ended h).legal
  refine ⟨hl, _, hostResponse_of_legal hl, ?_⟩
  have := t.wcount.isLt
  rw [List.length_take]
  exact Nat.min_eq_left (by simp only [List.length_cons, List.length_nil]; omega)

/-! ### The phase -/

/-- After an error only a split read whose read path failed leaves another phase than it found. -/
theorem phaseAfter_of_error {i : Instr} {p : BitVec 3} {st : Word} (hst : st ≠ 0)
    (h : errStage st ≠ 2 ∨ ∀ k : Kind, i ≠ k.readRequest) : phaseAfter i p st = p := by
  have hread : ∀ k : Kind, i = k.readRequest → ¬(st = 0 ∨ errStage st = 2) := fun k hk hs =>
    hs.elim hst fun h2 => h.elim (fun hn => hn h2) fun hn => hn k hk
  cases i
  case probe => exact if_neg fun hs => hst hs.1
  case iaqInit | measureIaq | measureTvoc | measureCo2Eq | measureRaw => exact if_neg hst
  case readIaq => exact if_neg (hread .iaq rfl)
  case readTvoc => exact if_neg (hread .tvoc rfl)
  case readCo2Eq => exact if_neg (hread .co2eq rfl)
  case readRaw => exact if_neg (hread .raw rfl)
  all_goals rfl

@[simp] theorem phaseAfter_measureRequest (k : Kind) (p : BitVec 3) : phaseAfter k.measureRequest p 0 = 3 := by
  cases k <;> rfl

@[simp] theorem phaseAfter_blockingRequest (k : Kind) (p : BitVec 3) (st : Word) : phaseAfter k.blockingRequest p st = p := by
  cases k <;> rfl

theorem phaseAfter_readRequest (k : Kind) (p : BitVec 3) {st : Word} (h : st = 0 ∨ errStage st = 2) :
    phaseAfter k.readRequest p st = 2 := by
  cases k <;> exact if_pos h

/-- The last rule lines of an instruction in mode `FULL` leave the phase of the table. -/
theorem postOf_phase {i : Instr}
    (hk : ∀ k : Kind, i ≠ k.measureRequest ∧ i ≠ k.blockingRequest ∧ i ≠ k.readRequest) (u : State) :
    (postOf i u).phase = phaseAfter i u.phase 0 := by
  have hs : (postOf i u).phase = (sessionAfter i u.session u.word0 u.word1).phase :=
    congrArg Session.phase (postOf_session i u)
  rw [hs]
  cases i
  case probe =>
    by_cases h : u.phase = 0
    · exact (if_pos h).trans (if_pos ⟨rfl, h⟩).symm
    · exact (if_neg h).trans (if_neg fun hp => h hp.2).symm
  case measureIaq => exact absurd rfl (hk .iaq).1
  case measureTvoc => exact absurd rfl (hk .tvoc).1
  case measureCo2Eq => exact absurd rfl (hk .co2eq).1
  case measureRaw => exact absurd rfl (hk .raw).1
  case readIaq => exact absurd rfl (hk .iaq).2.2
  case readTvoc => exact absurd rfl (hk .tvoc).2.2
  case readCo2Eq => exact absurd rfl (hk .co2eq).2.2
  case readRaw => exact absurd rfl (hk .raw).2.2
  all_goals rfl

/-- Only a split measure enters `MeasurementInFlight`. -/
theorem phaseAfter_eq_inFlight {i : Instr} {p : BitVec 3} {st : Word} (h : phaseAfter i p st = 3) :
    p = 3 ∨ ∃ k : Kind, i = k.measureRequest := by
  cases i
  case measureIaq => exact .inr ⟨.iaq, rfl⟩
  case measureTvoc => exact .inr ⟨.tvoc, rfl⟩
  case measureCo2Eq => exact .inr ⟨.co2eq, rfl⟩
  case measureRaw => exact .inr ⟨.raw, rfl⟩
  case probe | iaqInit | readIaq | readTvoc | readCo2Eq | readRaw =>
    simp only [phaseAfter] at h
    split at h
    · cases h
    · exact .inl h
  all_goals exact .inl h

/-- R140: the phase after an instruction. -/
theorem Ended.phase {i : Instr} {s t : State} (h : Ended i s t) : t.phase = phaseAfter i s.phase t.status := by
  cases h with
  | failed e ht _ hp =>
    obtain ⟨hst, -⟩ := ht
    have hs2 : errStage t.status = e.stageCode := by rw [hst, errStage_statusOf]
    have h0 : t.status ≠ 0 := hst ▸ statusOf_ne_zero e
    rcases hp with ⟨hp, hn⟩ | ⟨hp, h2, -, ⟨⟨k, rfl⟩, -⟩ | hp2⟩
    · rw [phaseAfter_of_error h0 (hn.imp (fun h => hs2 ▸ h) fun h k hi => h ⟨k, .inl hi⟩), hp]
    · rw [phaseAfter_readRequest k s.phase (.inr (hs2.trans h2)), hp]
    · by_cases hr : ∃ k : Kind, i = k.readRequest
      · obtain ⟨k, rfl⟩ := hr
        rw [phaseAfter_readRequest k s.phase (.inr (hs2.trans h2)), hp]
      · rw [phaseAfter_of_error h0 (.inr fun k hi => hr ⟨k, hi⟩), hp, hp2]
  | full c u hi hk _ hu ht =>
    rw [ht, (postOf_status hi hk u).1, postOf_phase hk, show u.phase = s.phase from congrArg Session.phase hu]
  | crcCompute a0 hi ht => exact hi ▸ congrArg Session.phase ht.2.1
  | crcVerify a0 a1 hi ht => exact hi ▸ congrArg Session.phase ht.2.1
  | started k hi _ ht =>
    rw [hi, completed_status ht, phaseAfter_measureRequest]
    exact congrArg Session.phase ht.2.1
  | wasRead k ws hi _ ht =>
    rw [hi, phaseAfter_readRequest k _ (.inl (completed_status ht))]
    exact congrArg Session.phase ht.2.1
  | blocked k ws hi hp ht =>
    rw [hi, phaseAfter_blockingRequest, hp]
    exact congrArg Session.phase ht.2.1

/-- A split measure that has entered `MeasurementInFlight` has left its kind. -/
theorem Ended.kind_of_measure {k : Kind} {s t : State} (h : Ended k.measureRequest s t) (ht3 : t.phase = 3)
    (hs3 : s.phase ≠ 3) : t.kind = k := by
  cases h with
  | failed e _ _ hp =>
    rcases hp with ⟨hp, -⟩ | ⟨hp, -⟩
    · exact absurd (hp.symm.trans ht3) hs3
    · exact absurd (hp.symm.trans ht3) (by decide)
  | full c u hi hk => exact absurd rfl (hk k).1
  | started k' hi _ ht => rw [measureRequest_injective hi]; exact congrArg Session.kind ht.2.1
  | wasRead k' ws hi => exact absurd hi (measureRequest_ne k k').1
  | blocked k' ws hi => exact absurd hi (measureRequest_ne k k').2
  | crcCompute a0 hi => cases k <;> cases hi
  | crcVerify a0 a1 hi => cases k <;> cases hi

/-- Settles O47: `PHASE` ends as `phaseAfter` says, and only the entry of a split measure gives `MeasurementInFlight`. -/
theorem phaseFollowsTheTable : Obligations.PhaseFollowsTheTable := by
  unfold Obligations.PhaseFollowsTheTable
  intro i s t h
  have hp := (exec_ended h).phase
  refine ⟨hp, fun h3 hs3 => ?_⟩
  rcases phaseAfter_eq_inFlight (hp.symm.trans h3) with hs | ⟨k, rfl⟩
  · exact absurd hs hs3
  · exact ⟨k, rfl, (exec_ended h).kind_of_measure h3 hs3⟩

/-! ### The session registers -/

/-- R14, R15, R27: which of the last rule lines write which session register. -/
theorem sessionAfter_keeps (i : Instr) (x : Session) (w0 w1 : Word) :
    (((sessionAfter i x w0 w1).fsReg = x.fsReg ∧ (sessionAfter i x w0 w1).fsValid = x.fsValid) ∨
      i = .probe ∨ i = .getFeatureSetVersion) ∧
    (((sessionAfter i x w0 w1).baseReg = x.baseReg ∧ (sessionAfter i x w0 w1).baseValid = x.baseValid) ∨
      i = .getIaqBaseline ∨ ∃ a0 a1, i = .setIaqBaseline a0 a1) ∧
    ((sessionAfter i x w0 w1).b = x.b ∨ i = .measureTest) ∧ (sessionAfter i x w0 w1).kind = x.kind := by
  cases i
  case probe => exact ⟨.inr (.inl rfl), .inl ⟨rfl, rfl⟩, .inl rfl, rfl⟩
  case getFeatureSetVersion => exact ⟨.inr (.inr rfl), .inl ⟨rfl, rfl⟩, .inl rfl, rfl⟩
  case getIaqBaseline => exact ⟨.inl ⟨rfl, rfl⟩, .inr (.inl rfl), .inl rfl, rfl⟩
  case setIaqBaseline a0 a1 => exact ⟨.inl ⟨rfl, rfl⟩, .inr (.inr ⟨a0, a1, rfl⟩), .inl rfl, rfl⟩
  case measureTest => exact ⟨.inl ⟨rfl, rfl⟩, .inl ⟨rfl, rfl⟩, .inr rfl, rfl⟩
  all_goals exact ⟨.inl ⟨rfl, rfl⟩, .inl ⟨rfl, rfl⟩, .inl rfl, rfl⟩

/-- Two states with the same session hold the same session registers. -/
theorem session_fields {t : State} {x : Session} (h : t.session = x) :
    t.phase = x.phase ∧ t.kind = x.kind ∧ t.fsReg = x.fsReg ∧ t.fsValid = x.fsValid ∧ t.baseReg = x.baseReg ∧
      t.baseValid = x.baseValid ∧ t.b = x.b := by
  subst h
  exact ⟨rfl, rfl, rfl, rfl, rfl, rfl, rfl⟩

/-- What each way to end leaves of the session registers but `PHASE`, and who writes them. -/
theorem Ended.writes {i : Instr} {s t : State} (h : Ended i s t) :
    ((t.fsReg = s.fsReg ∧ t.fsValid = s.fsValid) ∨ t.status = 0 ∧ (i = .probe ∨ i = .getFeatureSetVersion)) ∧
    ((t.baseReg = s.baseReg ∧ t.baseValid = s.baseValid) ∨
      t.status = 0 ∧ (i = .getIaqBaseline ∨ ∃ a0 a1, i = .setIaqBaseline a0 a1)) ∧
    (t.b = s.b ∨ t.status = 0 ∧ (i = .measureTest ∨ ∃ a0 a1, i = .crcVerify a0 a1)) ∧
    (t.kind = s.kind ∨ t.status = 0 ∧ ∃ k : Kind, t.kind = k ∧ (i = k.measureRequest ∨ i = k.blockingRequest)) := by
  cases h with
  | failed e ht =>
    obtain ⟨-, -, hse, -⟩ := ht
    obtain ⟨-, hkind, hfs, hfv, hbase, hbv, hb⟩ := session_fields hse
    exact ⟨.inl ⟨hfs, hfv⟩, .inl ⟨hbase, hbv⟩, .inl hb, .inl hkind⟩
  | crcCompute a0 hi ht =>
    obtain ⟨-, hkind, hfs, hfv, hbase, hbv, hb⟩ := session_fields ht.2.1
    exact ⟨.inl ⟨hfs, hfv⟩, .inl ⟨hbase, hbv⟩, .inl hb, .inl hkind⟩
  | crcVerify a0 a1 hi ht =>
    obtain ⟨-, hkind, hfs, hfv, hbase, hbv, -⟩ := session_fields ht.2.1
    exact ⟨.inl ⟨hfs, hfv⟩, .inl ⟨hbase, hbv⟩, .inr ⟨completed_status ht, .inr ⟨a0, a1, hi⟩⟩, .inl hkind⟩
  | full c u hi hk _ hu ht =>
    have hst : t.status = 0 := ht ▸ (postOf_status hi hk u).1
    have hse : t.session = sessionAfter i s.session u.word0 u.word1 := by rw [ht, postOf_session, hu]
    obtain ⟨-, hkind, hfs, hfv, hbase, hbv, hb⟩ := session_fields hse
    obtain ⟨kfs, kbase, kb, kkind⟩ := sessionAfter_keeps i s.session u.word0 u.word1
    exact ⟨kfs.imp (fun h => ⟨hfs.trans h.1, hfv.trans h.2⟩) fun h => ⟨hst, h⟩,
      kbase.imp (fun h => ⟨hbase.trans h.1, hbv.trans h.2⟩) fun h => ⟨hst, h⟩,
      kb.imp (fun h => hb.trans h) fun h => ⟨hst, .inl h⟩, .inl (hkind.trans kkind)⟩
  | started k hi _ ht =>
    obtain ⟨-, hkind, hfs, hfv, hbase, hbv, hb⟩ := session_fields ht.2.1
    exact ⟨.inl ⟨hfs, hfv⟩, .inl ⟨hbase, hbv⟩, .inl hb, .inr ⟨completed_status ht, k, hkind, .inl hi⟩⟩
  | wasRead k ws hi _ ht =>
    obtain ⟨-, hkind, hfs, hfv, hbase, hbv, hb⟩ := session_fields ht.2.1
    exact ⟨.inl ⟨hfs, hfv⟩, .inl ⟨hbase, hbv⟩, .inl hb, .inl hkind⟩
  | blocked k ws hi _ ht =>
    obtain ⟨-, hkind, hfs, hfv, hbase, hbv, hb⟩ := session_fields ht.2.1
    exact ⟨.inl ⟨hfs, hfv⟩, .inl ⟨hbase, hbv⟩, .inl hb, .inr ⟨completed_status ht, k, hkind, .inr hi⟩⟩

/-- Settles O48: a register that changed is not one that was kept. -/
theorem onlyTheirRequestsWriteRegisters : Obligations.OnlyTheirRequestsWriteRegisters := by
  unfold Obligations.OnlyTheirRequestsWriteRegisters
  intro i s t h
  obtain ⟨hfs, hbase, hb, hkind⟩ := (exec_ended h).writes
  refine ⟨fun hn => hfs.resolve_left fun hk => ?_, fun hn => hbase.resolve_left fun hk => ?_,
    fun hn => hb.resolve_left hn, fun hn => hkind.resolve_left hn⟩
  · exact hn.elim (fun h => h hk.1) fun h => h hk.2
  · exact hn.elim (fun h => h hk.1) fun h => h hk.2

end Sys2Proof.Machine
end

section
/-! PROOF. The record of the port calls of one instruction: its write, the sleeps, and its read, in this order, with what each
leaves in the registers of the protocol engine. `Ports` says which of them are made; `exec_calls` puts them together. -/

namespace Sys2Proof.Machine

/-! ### The parts of the record -/

/-- The write that an instruction makes, and the registers it fills: none, and they stay; or the frame of its command. -/
inductive WriteMade (i : Instr) (s t : State) : List Event → Prop where
  | none (hbuf : t.txbuf = s.txbuf ∧ t.arg0 = s.arg0 ∧ t.arg1 = s.arg1 ∧ t.narg = s.narg)
      (hissue : t.pendCmd = s.pendCmd ∧ t.tIssue = s.tIssue ∧ t.tWait = s.tWait) : WriteMade i s t []
  | frame (c : Cmd) (r : WriteResult) (hi : i.issues = some c) (ha : admitCmd c (begin s) = .pass)
      (hbuf : t.txbuf = frameOf (s.cfg.catalog.entry c).opcode ([t.arg0, t.arg1].take (s.cfg.catalog.entry c).nArg.val))
      (hnarg : t.narg.toNat ≤ 2) (hack : r = .ack → issueRecorded s t c)
      (hfail : r ≠ .ack → t.pendCmd = s.pendCmd ∧ t.tIssue = s.tIssue ∧ t.tWait = s.tWait) :
      WriteMade i s t [⟨s.env.now, .write, .write s.cfg.addr t.txbuf r⟩]

/-- The read that is made in a state, and what it leaves in `RXBUF` and `CRC_REG`. -/
inductive ReadMade (s t : State) : List Event → Prop where
  | none (hrx : t.rxbuf = s.rxbuf) (hcrc : t.crcReg = s.crcReg) : ReadMade s t []
  | read (n : Nat) (r : ReadResult) (hrx : t.rxbuf = answerKept r s.rxbuf)
      (hcrc : t.crcReg ≠ s.crcReg → ∃ bs, r = .bytes bs ∧ n = bs.length) :
      ReadMade s t [⟨s.env.now, .read, .read s.cfg.addr n r⟩]

/-- The port calls of an instruction. `w` is the state in which it has written and waited. -/
structure Calls (i : Instr) (s w t : State) (written slept read : List Event) : Prop where
  trace : t.env.trace = s.env.trace ++ written ++ slept ++ read
  writes : WriteMade i s t written
  sleeps : ∀ e ∈ slept, e.isSleep = true ∧ s.env.now ≤ e.time ∧ e.time ≤ w.env.now
  reads : ReadMade w t read
  cfg : w.cfg = s.cfg
  rxbuf : w.rxbuf = s.rxbuf
  /-- R70: before the read a checksum is computed only by a CRC request or for argument words. -/
  crc : w.crcReg ≠ s.crcReg →
    (∃ a0, i = .crcCompute a0) ∨ (∃ a0 a1, i = .crcVerify a0 a1) ∨ written ≠ [] ∧ 2 < t.txbuf.length
  /-- R171: an error of stage 0 is raised before any call. -/
  quiet : errKind t.status ≠ 0 → errStage t.status = 0 → written = [] ∧ slept = [] ∧ read = []
  host : t.env.host = s.env.host
  times : s.env.now ≤ w.env.now ∧ w.env.now ≤ t.env.now
  /-- R102: an issue is recorded with the time at which its write returned. -/
  issueTime : t.tIssue = s.tIssue ∨ ∃ m ≤ w.env.now, t.tIssue = BitVec.ofNat 64 m
  /-- R103, R155: no command was issued, or one that is now in flight, or the wait of the last one is over. -/
  waited :
    (read = [] ∧ t.tIssue = s.tIssue ∧ t.tWait = s.tWait ∧ (t.phase = s.phase ∨ s.phase ≠ 3)) ∨
    (read = [] ∧ t.status = 0 ∧ ∃ k : Kind, i = k.measureRequest) ∨
    t.tWait.toNat ≤ (BitVec.ofNat 64 w.env.now - t.tIssue).toNat

/-! ### The kinds of calls -/

theorem Event.isWrite_iff (e : Event) : e.isWrite = true ↔ ∃ addr bytes r, e.call = .write addr bytes r := by
  obtain ⟨time, txn, call⟩ := e
  cases call <;> simp [Event.isWrite]

theorem Event.isRead_iff (e : Event) : e.isRead = true ↔ ∃ addr n r, e.call = .read addr n r := by
  obtain ⟨time, txn, call⟩ := e
  cases call <;> simp [Event.isRead]

theorem Event.isSleep_iff (e : Event) : e.isSleep = true ↔ ∃ us, e.call = .sleep us := by
  obtain ⟨time, txn, call⟩ := e
  cases call <;> simp [Event.isSleep]

/-! ### The read path -/

/-- Two states with the same registers of the engine, field by field. -/
theorem traffic_fields {t : State} {x : Traffic} (h : t.traffic = x) :
    (t.txbuf = x.txbuf ∧ t.arg0 = x.arg0 ∧ t.arg1 = x.arg1 ∧ t.narg = x.narg) ∧
    (t.pendCmd = x.pendCmd ∧ t.tIssue = x.tIssue ∧ t.tWait = x.tWait) ∧
    t.rxbuf = x.rxbuf ∧ t.crcReg = x.crcReg ∧ t.env = x.env ∧ t.cfg = x.cfg := by
  subst h
  exact ⟨⟨rfl, rfl, rfl, rfl⟩, ⟨rfl, rfl, rfl⟩, rfl, rfl, rfl, rfl⟩

/-- The read path makes at most one call. -/
theorem ReadPart.made {c : Cmd} {s t : State} (h : ReadPart c s t) :
    ∃ read, t.env.trace = s.env.trace ++ read ∧ ReadMade s t read ∧ t.env.host = s.env.host ∧
      s.env.now ≤ t.env.now := by
  cases h with
  | none hn ht =>
    obtain ⟨-, -, hrx, hcrc, he, -⟩ := traffic_fields ht
    exact ⟨[], by simp [he, State.traffic], .none hrx hcrc, by rw [he]; rfl, by rw [he]; exact Nat.le_refl _⟩
  | read hn ht hc =>
    obtain ⟨-, -, hrx, -, he, -⟩ := traffic_fields ht
    refine ⟨_, congrArg Env.trace he, .read _ _ hrx fun hne => ?_, by rw [he]; rfl, by rw [he]; exact Nat.le_add_right _ _⟩
    obtain ⟨bs, hbs, hl⟩ := hc hne
    exact ⟨bs, hbs, hl.symm⟩

/-- The read path leaves what the write path wrote. -/
theorem ReadPart.keeps {c : Cmd} {s t : State} (h : ReadPart c s t) :
    t.traffic = { s.traffic with rxbuf := t.rxbuf, crcReg := t.crcReg, env := t.env } := by
  cases h with
  | none hn ht =>
    obtain ⟨-, -, hrx, hcrc, he, -⟩ := traffic_fields ht
    rw [ht, hrx, hcrc, he]
  | read hn ht hc =>
    obtain ⟨-, -, hrx, -, he, -⟩ := traffic_fields ht
    rw [ht, hrx, he]

/-! ### The write path -/

theorem nextWrite_congr {s t : State} (h : t.env = s.env) : nextWrite t = nextWrite s := by
  unfold nextWrite
  rw [h]

/-- The write of an assembled frame: it is made at the time of the request, and recorded. -/
theorem Assembled.writeMade {i : Instr} {c : Cmd} {s s' t : State} (hs : Assembled c (begin s) s') (hi : i.issues = some c)
    (ha : admitCmd c (begin s) = .pass)
    (hb : t.txbuf = s'.txbuf ∧ t.arg0 = s'.arg0 ∧ t.arg1 = s'.arg1 ∧ t.narg = s'.narg)
    (hack : (nextWrite s').result = .ack → issueRecorded s t c)
    (hfail : (nextWrite s').result ≠ .ack → t.pendCmd = s.pendCmd ∧ t.tIssue = s.tIssue ∧ t.tWait = s.tWait) :
    ∃ written, (busWrite s'.txbuf s').env.trace = s.env.trace ++ written ∧ WriteMade i s t written ∧ written ≠ [] := by
  obtain ⟨henv, hcfg, -, htxn, -⟩ := hs.keeps
  obtain ⟨hbuf, h0, h1, hn⟩ := hb
  obtain ⟨ws, -, hws, hfr⟩ := hs.frame
  have hframe : t.txbuf = frameOf (s.cfg.catalog.entry c).opcode
      ([t.arg0, t.arg1].take (s.cfg.catalog.entry c).nArg.val) := by
    rw [hbuf, hfr, hws, h0, h1]
    rfl
  refine ⟨_, ?_, .frame c (nextWrite s').result hi ha hframe (hn ▸ hs.narg) hack hfail, by simp⟩
  rw [busWrite_env, henv, hcfg, htxn, hbuf]

/-- An acknowledged write records the issue of its command (R102). -/
theorem Assembled.recorded {c : Cmd} {s s' t : State} (hs : Assembled c (begin s) s')
    (h : t.pendCmd = (issued c s').pendCmd ∧ t.tIssue = (issued c s').tIssue ∧ t.tWait = (issued c s').tWait) :
    issueRecorded s t c := by
  obtain ⟨henv, hcfg, -⟩ := hs.keeps
  obtain ⟨hp, hi, hw⟩ := h
  refine ⟨hp, hi.trans ?_, hw.trans ?_⟩
  · simp only [issued, henv, nextWrite_congr henv]
  · simp only [issued, hcfg]

/-- A phase that admits a command is not `MeasurementInFlight`. -/
theorem phase_ne_of_admit {c : Cmd} {s : State} (h : admitCmd c (begin s) = .pass) : s.phase ≠ 3 := by
  obtain ⟨p, hp, hne, -⟩ := admit_pass h
  intro h3
  have hp3 : p.bits = 3 := hp.symm.trans h3
  cases p <;> first | exact hne rfl | exact absurd hp3 (by decide)

/-! ### The whole record -/

/-- An instruction that ends after its read has no error of stage 0. -/
theorem EndsAfterRead.not_quiet {t : State} (h : EndsAfterRead t) (hk : errKind t.status ≠ 0)
    (hs : errStage t.status = 0) :
    False := by
  rcases h with h | h
  · exact hk (by rw [h]; decide)
  · exact absurd (h.symm.trans hs) (by decide)

theorem calls_of_silent {i : Instr} {s t : State} (hp : t.phase = s.phase)
    (ht : t.traffic = { s.traffic with crcReg := t.crcReg })
    (hc : t.crcReg ≠ s.crcReg → (∃ a0, i = .crcCompute a0) ∨ ∃ a0 a1, i = .crcVerify a0 a1) :
    Calls i s t t [] [] [] := by
  obtain ⟨hbuf, hissue, hrx, -, he, hcfg⟩ := traffic_fields ht
  have he : t.env = s.env := he
  exact
    { trace := by simp [he]
      writes := .none hbuf hissue
      sleeps := by simp
      reads := .none rfl rfl
      cfg := hcfg
      rxbuf := hrx
      crc := fun hne => (hc hne).imp id .inl
      quiet := fun _ _ => ⟨rfl, rfl, rfl⟩
      host := by rw [he]
      times := by simp [he]
      issueTime := .inl hissue.2.1
      waited := .inl ⟨rfl, hissue.2.1, hissue.2.2, .inl hp⟩ }

/-- An instruction that makes its write, and no other call: its write fails, or it is a split measure. -/
theorem Assembled.calls {i : Instr} {c : Cmd} {s s' t : State} (hs : Assembled c (begin s) s') (hi : i.issues = some c)
    (ha : admitCmd c (begin s) = .pass)
    (hkept : t.traffic = { s'.traffic with
      pendCmd := t.pendCmd, tIssue := t.tIssue, tWait := t.tWait, env := (busWrite s'.txbuf s').env })
    (hack : (nextWrite s').result = .ack → issueRecorded s t c ∧ t.status = 0 ∧ ∃ k : Kind, i = k.measureRequest)
    (hfail : (nextWrite s').result ≠ .ack → (t.pendCmd = s.pendCmd ∧ t.tIssue = s.tIssue ∧ t.tWait = s.tWait) ∧
      errStage t.status ≠ 0) : ∃ written, Calls i s t t written [] [] := by
  obtain ⟨henv, hcf, -⟩ := hs.keeps
  obtain ⟨hbuf, -, hrx, hcrc, he, hcfg⟩ := traffic_fields hkept
  obtain ⟨written, htr, hwm, hne⟩ := hs.writeMade hi ha hbuf (fun h => (hack h).1) fun h => (hfail h).1
  have he : t.env = (busWrite s'.txbuf s').env := he
  have hrx' : s'.rxbuf = s.rxbuf := by rw [hs.rest]; rfl
  have hnow : t.env.now = s.env.now + (nextWrite s).dt := by rw [he, busWrite_env, nextWrite_congr henv, henv]
  have hle : s.env.now ≤ t.env.now := hnow ▸ Nat.le_add_right _ _
  refine ⟨written, ?_⟩
  exact
    { trace := by rw [he, htr]; simp
      writes := hwm
      sleeps := by simp
      reads := .none rfl rfl
      cfg := hcfg.trans hcf
      rxbuf := hrx.trans hrx'
      crc := fun h => .inr (.inr ⟨hne, by rw [hbuf.1]; exact hs.crc fun he => h (hcrc.trans he)⟩)
      quiet := fun hk h0 => by
        by_cases hw : (nextWrite s').result = .ack
        · exact absurd (by rw [(hack hw).2.1]; decide) hk
        · exact absurd h0 (hfail hw).2
      host := by rw [he, ← henv]; rfl
      times := ⟨hle, Nat.le_refl _⟩
      issueTime := by
        by_cases hw : (nextWrite s').result = .ack
        · exact .inr ⟨t.env.now, Nat.le_refl _, by rw [hnow]; exact (hack hw).1.2.1⟩
        · exact .inl (hfail hw).1.2.1
      waited := by
        by_cases hw : (nextWrite s').result = .ack
        · exact .inr (.inl ⟨rfl, (hack hw).2⟩)
        · exact .inl ⟨rfl, (hfail hw).1.2.1, (hfail hw).1.2.2, .inr (phase_ne_of_admit ha)⟩ }

theorem calls_of_exchanged {i : Instr} {c : Cmd} {s s' u t : State} (hs : Assembled c (begin s) s')
    (hi : i.issues = some c) (ha : admitCmd c (begin s) = .pass) (hw : (nextWrite s').result = .ack)
    (hu : u.traffic = (issued c s').traffic) (hr : ReadPart c (waitPath u) t) (hst : EndsAfterRead t) :
    ∃ written slept read, Calls i s (waitPath u) t written slept read := by
  obtain ⟨henv, hcf, -⟩ := hs.keeps
  obtain ⟨-, uissue, urx, ucrc, ue, ucfg⟩ := traffic_fields hu
  obtain ⟨-, -, wrx, wcrc, -, wcfg⟩ := traffic_fields (waitPath_traffic u)
  obtain ⟨whost, -, -, wnow, slept, wtr, -, wslept⟩ := waitPath_env u
  have ht : t.traffic = { (issued c s').traffic with rxbuf := t.rxbuf, crcReg := t.crcReg, env := t.env } := by
    rw [hr.keeps, waitPath_traffic, hu]
  obtain ⟨hbuf, hissue, -⟩ := traffic_fields ht
  obtain ⟨read, htr, hrm, hhost, hnow⟩ := hr.made
  obtain ⟨written, utr, hwm, hne⟩ := hs.writeMade hi ha hbuf (fun _ => hs.recorded hissue) fun h => absurd hw h
  have ue : u.env = (busWrite s'.txbuf s').env := ue
  have hunow : s.env.now ≤ u.env.now := by rw [ue, ← henv]; exact Nat.le_add_right _ _
  have hrx : s'.rxbuf = s.rxbuf := by rw [hs.rest]; rfl
  have htime : u.tIssue = BitVec.ofNat 64 u.env.now := by rw [ue]; exact uissue.2.1
  have htissue : t.tIssue = u.tIssue := hissue.2.1.trans uissue.2.1.symm
  have htwait : t.tWait = u.tWait := hissue.2.2.trans uissue.2.2.symm
  obtain ⟨hwait, -⟩ := waitPath_waits htime
  refine ⟨written, slept, read, ?_⟩
  exact
    { trace := by rw [htr, wtr, ue, utr]
      writes := hwm
      sleeps := fun e he => by
        obtain ⟨-, ⟨us, hus⟩, h1, h2⟩ := wslept e he
        exact ⟨e.isSleep_iff.2 ⟨us, hus⟩, Nat.le_trans hunow h1, h2⟩
      reads := hrm
      cfg := wcfg.trans (ucfg.trans hcf)
      rxbuf := wrx.trans (urx.trans hrx)
      crc := fun h => .inr (.inr ⟨hne, by rw [hbuf.1]; exact hs.crc fun he => h (wcrc.trans (ucrc.trans he))⟩)
      quiet := fun hk h0 => (hst.not_quiet hk h0).elim
      host := by rw [hhost, whost, ue, ← henv]; rfl
      times := ⟨Nat.le_trans hunow wnow, hnow⟩
      issueTime := .inr ⟨u.env.now, wnow, htissue.trans htime⟩
      waited := .inr (.inr (by rw [htissue, htwait]; exact hwait)) }

theorem calls_of_wasRead {i : Instr} {k : Kind} {s t : State} (ha : readAdmit k (begin s) = .pass)
    (hr : ReadPart k.cmd (begin s) t) (hst : EndsAfterRead t) : ∃ read, Calls i s (begin s) t [] [] read := by
  obtain ⟨hbuf, hissue, -⟩ := traffic_fields hr.keeps
  obtain ⟨read, htr, hrm, hhost, hnow⟩ := hr.made
  obtain ⟨-, -, hover⟩ := readAdmit_pass ha
  refine ⟨read, ?_⟩
  exact
    { trace := by rw [htr]; simp [begin]
      writes := .none hbuf hissue
      sleeps := by simp
      reads := hrm
      cfg := rfl
      rxbuf := rfl
      crc := fun h => absurd rfl h
      quiet := fun hk h0 => (hst.not_quiet hk h0).elim
      host := hhost
      times := ⟨Nat.le_refl _, hnow⟩
      issueTime := .inl hissue.2.1
      waited := .inr (.inr (by rw [hissue.2.1, hissue.2.2]; exact (waitElapsed_iff _).1 hover)) }

/-- The port calls of every instruction. -/
theorem exec_calls {i : Instr} {s t : State} (h : exec i s = .next t) :
    ∃ w written slept read, Calls i s w t written slept read := by
  cases exec_ports h with
  | silent hp ht hc => exact ⟨t, [], [], [], calls_of_silent hp.1 ht hc⟩
  | unacknowledged c s' f hi ha hs hw ht hst =>
    obtain ⟨-, -, -, -, h1, h2, h3⟩ := hs.keeps
    obtain ⟨-, hissue, -⟩ := traffic_fields ht
    have hkept : t.pendCmd = s.pendCmd ∧ t.tIssue = s.tIssue ∧ t.tWait = s.tWait :=
      ⟨hissue.1.trans h1, hissue.2.1.trans h2, hissue.2.2.trans h3⟩
    have hstage : errStage t.status ≠ 0 := by rw [hst, errStage_statusOf]; exact (by decide : (1 : BitVec 2) ≠ 0)
    obtain ⟨written, hc⟩ := hs.calls hi ha (by rw [ht, hissue.1, hissue.2.1, hissue.2.2]; rfl) (fun h => absurd h hw)
      fun _ => ⟨hkept, hstage⟩
    exact ⟨t, written, [], [], hc⟩
  | started k s' hi ha hs hw ht hst =>
    obtain ⟨-, hissue, -⟩ := traffic_fields ht
    obtain ⟨written, hc⟩ := hs.calls (i := i) (by rw [hi, issues_measureRequest]) ha
      (by rw [ht, hissue.1, hissue.2.1, hissue.2.2]; rfl) (fun _ => ⟨hs.recorded hissue, hst, k, hi⟩)
      fun h => absurd hw h
    exact ⟨t, written, [], [], hc⟩
  | exchanged c s' u hi _ ha hs hw hu hr hst => exact ⟨_, calls_of_exchanged hs hi ha hw hu hr hst⟩
  | wasRead k hi ha hr hst =>
    obtain ⟨read, hc⟩ := calls_of_wasRead ha hr hst
    exact ⟨_, [], [], read, hc⟩

end Sys2Proof.Machine
end

section
/-! PROOF. The statements about all instructions that are read off the record of their port calls: O3, O24, O25, O49, O50, O53,
O54. -/

namespace Sys2Proof.Machine

/-! ### The new events -/

theorem newEvents_of_trace {s t : State} {es : List Event} (h : t.env.trace = s.env.trace ++ es) : newEvents s t = es := by
  rw [newEvents, h, List.drop_left]

section
variable {i : Instr} {s w t : State} {written slept read : List Event}

theorem Calls.newEvents (h : Calls i s w t written slept read) : newEvents s t = written ++ slept ++ read :=
  newEvents_of_trace (by rw [h.trace]; simp)

theorem Calls.written_mem (h : Calls i s w t written slept read) {e : Event} (he : e ∈ written) :
    e ∈ Machine.newEvents s t := by
  rw [h.newEvents]
  simp [he]

theorem Calls.read_mem (h : Calls i s w t written slept read) {e : Event} (he : e ∈ read) :
    e ∈ Machine.newEvents s t := by
  rw [h.newEvents]
  simp [he]

theorem WriteMade.isWrite (h : WriteMade i s t written) : written.length ≤ 1 ∧ ∀ e ∈ written, e.isWrite = true := by
  cases h <;> simp [Event.isWrite]

theorem ReadMade.isRead (h : ReadMade w t read) : read.length ≤ 1 ∧ ∀ e ∈ read, e.isRead = true := by
  cases h <;> simp [Event.isRead]

/-- A write among the calls is the first part of the record. -/
theorem Calls.write_of_mem (h : Calls i s w t written slept read) {e : Event} (he : e ∈ Machine.newEvents s t)
    {addr : BitVec 7} {bytes : List Byte} {r : WriteResult} (hc : e.call = .write addr bytes r) : e ∈ written := by
  rw [h.newEvents] at he
  rcases List.mem_append.1 he with he | he
  · rcases List.mem_append.1 he with he | he
    · exact he
    · obtain ⟨us, hu⟩ := e.isSleep_iff.1 (h.sleeps e he).1
      cases hu.symm.trans hc
  · obtain ⟨addr', n, r', hr⟩ := e.isRead_iff.1 (h.reads.isRead.2 e he)
    cases hr.symm.trans hc

/-- A read among the calls is the last part of the record. -/
theorem Calls.read_of_mem (h : Calls i s w t written slept read) {e : Event} (he : e ∈ Machine.newEvents s t)
    {addr : BitVec 7} {n : Nat} {r : ReadResult} (hc : e.call = .read addr n r) : e ∈ read := by
  rw [h.newEvents] at he
  rcases List.mem_append.1 he with he | he
  · rcases List.mem_append.1 he with he | he
    · obtain ⟨addr', bytes, r', hw⟩ := e.isWrite_iff.1 (h.writes.isWrite.2 e he)
      cases hw.symm.trans hc
    · obtain ⟨us, hu⟩ := e.isSleep_iff.1 (h.sleeps e he).1
      cases hu.symm.trans hc
  · exact he

end

/-! ### The statements -/

/-- Settles O24: the record of the port calls is the write, the sleeps and the read of `Calls`. -/
theorem atMostOneExchange : Obligations.AtMostOneExchange := by
  unfold Obligations.AtMostOneExchange
  intro i s t h
  obtain ⟨w, written, slept, read, hc⟩ := exec_calls h
  obtain ⟨hw1, hw2⟩ := hc.writes.isWrite
  obtain ⟨hr1, hr2⟩ := hc.reads.isRead
  exact ⟨written, slept, read, hc.trace, hw1, hw2, fun e he => (hc.sleeps e he).1, hr1, hr2, hc.quiet⟩

/-- Settles O25: the write and the read of the record are the only calls that fill the buffers. -/
theorem buffersHoldTheTransaction : Obligations.BuffersHoldTheTransaction := by
  unfold Obligations.BuffersHoldTheTransaction
  intro i s t h
  obtain ⟨w, written, slept, read, hc⟩ := exec_calls h
  refine ⟨fun e he addr bytes r hcall => ?_, fun hno => ?_, fun e he addr n bs hcall => ?_, fun hno => ?_⟩
  · have hm := hc.write_of_mem he hcall
    cases hc.writes with
    | none => cases hm
    | frame c r' hi _ hbuf =>
      rw [List.mem_singleton.1 hm] at hcall
      cases hcall
      exact ⟨rfl, c, hi, hbuf⟩
  · cases hc.writes with
    | none hbuf => exact hbuf
    | frame => exact absurd (hno _ (hc.written_mem (List.mem_singleton.2 rfl))) (by simp [Event.isWrite])
  · have hm := hc.read_of_mem he hcall
    cases hc.reads with
    | none => cases hm
    | read n' r hrx =>
      rw [List.mem_singleton.1 hm] at hcall
      cases hcall
      exact hrx
  · cases hc.reads with
    | none hrx => exact hrx.trans hc.rxbuf
    | read n r hrx =>
      cases r with
      | bytes bs => exact absurd rfl (hno _ (hc.read_mem (List.mem_singleton.2 rfl)) w.cfg.addr n bs)
      | nack => exact hrx.trans hc.rxbuf
      | ioerr => exact hrx.trans hc.rxbuf

/-- Words of the number that `P_NARG` gives are the operands of a frame of that format. -/
theorem exists_command_of_length {cat : Catalog} {c : Cmd} {ws : List Word} (h : ws.length = (cat.entry c).nArg.val) :
    ∃ arg0 arg1, ws = argWords arg0 arg1 ∧ (cat.entry c).fits arg0 arg1 = true := by
  unfold CatalogEntry.fits
  generalize (cat.entry c).nArg = n at h
  match ws, n, h with
  | [], 0, _ => exact ⟨none, none, rfl, rfl⟩
  | [w0], 1, _ => exact ⟨some w0, none, rfl, rfl⟩
  | [w0, w1], 2, _ => exact ⟨some w0, some w1, rfl, rfl⟩

/-- Settles O3: the bytes of a write are the frame of the command issued, and it decodes as `decodeFrame_frameOf` says. -/
theorem writtenFramesDecode : Obligations.WrittenFramesDecode := by
  unfold Obligations.WrittenFramesDecode
  intro i s t e addr bytes r hd h he hcall
  obtain ⟨-, c, hi, hb⟩ := (buffersHoldTheTransaction i s t h).1 e he addr bytes r hcall
  have hl : ([t.arg0, t.arg1].take (s.cfg.catalog.entry c).nArg.val).length = (s.cfg.catalog.entry c).nArg.val := by
    have := (s.cfg.catalog.entry c).nArg.isLt
    rw [List.length_take]
    exact Nat.min_eq_left (by simp only [List.length_cons, List.length_nil]; omega)
  obtain ⟨arg0, arg1, hws, hf⟩ := exists_command_of_length hl
  rw [hws] at hb hl
  refine ⟨c.command arg0 arg1, c, argWords arg0 arg1, ?_, hi, wire_command c arg0 arg1, hb, hl⟩
  rw [hb]
  exact decodeFrame_frameOf (ofOpcode_entry hd c) hf

/-- Settles O49: a register that changed is one that the write, the CRC request or the read of the record has written. -/
theorem onlyTrafficWritesItsRegisters : Obligations.OnlyTrafficWritesItsRegisters := by
  unfold Obligations.OnlyTrafficWritesItsRegisters
  intro i s t h
  obtain ⟨w, written, slept, read, hc⟩ := exec_calls h
  refine ⟨fun hne => ?_, fun hne => ?_⟩
  · have hchanged : ¬(t.pendCmd = s.pendCmd ∧ t.tIssue = s.tIssue ∧ t.tWait = s.tWait) := fun ⟨h1, h2, h3⟩ =>
      hne.elim (fun h => h h1) fun h => h.elim (fun h => h h2) fun h => h h3
    cases hc.writes with
    | none _ hissue => exact absurd hissue hchanged
    | frame c r hi _ _ _ hack hfail =>
      by_cases hr : r = .ack
      · subst hr
        obtain ⟨hp, -, hwait⟩ := hack rfl
        rw [hp]
        exact ⟨hi, hwait, _, hc.written_mem (List.mem_singleton.2 rfl), t.txbuf, rfl⟩
      · exact absurd (hfail hr) hchanged
  · by_cases hcw : w.crcReg = s.crcReg
    · cases hc.reads with
      | none _ hcrc => exact absurd (hcrc.trans hcw) hne
      | read n r _ hcrc =>
        obtain ⟨bs, rfl, rfl⟩ := hcrc (hcw ▸ hne)
        exact .inr (.inr ⟨_, hc.read_mem (List.mem_singleton.2 rfl), .inr ⟨w.cfg.addr, bs, rfl⟩⟩)
    · rcases hc.crc hcw with h | h | ⟨hwr, hlen⟩
      · exact .inl h
      · exact .inr (.inl h)
      · cases hc.writes with
        | none => exact absurd rfl hwr
        | frame c r =>
          exact .inr (.inr ⟨_, hc.written_mem (List.mem_singleton.2 rfl), .inl ⟨s.cfg.addr, t.txbuf, r, rfl, hlen⟩⟩)

/-- The issue of a command stays recorded through an error only where the read path raised it. -/
theorem Ports.issue_kept {i : Instr} {s t : State} (h : Ports i s t) (h0 : t.status ≠ 0) (h2 : errStage t.status ≠ 2) :
    t.pendCmd = s.pendCmd ∧ t.tIssue = s.tIssue ∧ t.tWait = s.tWait := by
  cases h with
  | silent _ ht => exact (traffic_fields ht).2.1
  | unacknowledged c s' f _ _ hs _ ht =>
    obtain ⟨-, -, -, -, h1, h2, h3⟩ := hs.keeps
    obtain ⟨-, hissue, -⟩ := traffic_fields ht
    exact ⟨hissue.1.trans h1, hissue.2.1.trans h2, hissue.2.2.trans h3⟩
  | started k s' _ _ _ _ _ hst => exact absurd hst h0
  | exchanged c s' u _ _ _ _ _ _ _ hst => exact (hst.elim h0 h2).elim
  | wasRead k _ _ _ hst => exact (hst.elim h0 h2).elim

/-- Settles O50: an instruction that did not complete ended with a failed transaction or was refused. -/
theorem errorsArePrecise : Obligations.ErrorsArePrecise := by
  unfold Obligations.ErrorsArePrecise
  intro i s t h h0
  have hissue := fun h2 => (exec_ports h).issue_kept h0 h2
  have hno {ws : List Word} {x : Session} : ¬completed t ws x := fun hc => h0 (completed_status hc)
  cases exec_ended h with
  | failed e ht hw hp =>
    obtain ⟨hst, hwc, hse, htxn⟩ := ht
    obtain ⟨-, hkind, hfs, hfv, hbase, hbv, hb⟩ := session_fields hse
    have hstage : errStage t.status = e.stageCode := by rw [hst, errStage_statusOf]
    refine ⟨hwc, htxn, hfs, hfv, hbase, hbv, hb, hw.1, hw.2.1, hw.2.2, hkind, fun h2 hm => ?_, fun hn => ?_, hissue⟩
    · rcases hp with ⟨-, hne | hne⟩ | ⟨hp, -⟩
      · exact absurd (hstage.symm.trans h2) hne
      · exact absurd hm hne
      · exact hp
    · rcases hp with ⟨hp, -⟩ | ⟨-, h2, ⟨k, hm⟩, -⟩
      · exact hp
      · rcases hn with hn | hn
        · exact absurd (hstage.trans h2) hn
        · exact (hm.elim (hn k).1 (hn k).2).elim
  | full c u hi hk _ _ ht => exact absurd (ht ▸ (postOf_status hi hk u).1) h0
  | crcCompute _ _ ht | crcVerify _ _ _ ht | started _ _ _ ht | wasRead _ _ _ _ ht | blocked _ _ _ _ ht =>
    exact absurd ht hno

/-- Settles O54: `TXN` by how an instruction ends, the host port by its port calls. -/
theorem requestEndsIdle : Obligations.RequestEndsIdle := by
  unfold Obligations.RequestEndsIdle
  intro i s t h
  obtain ⟨w, written, slept, read, hc⟩ := exec_calls h
  exact ⟨(exec_ended h).status.2, hc.host⟩

end Sys2Proof.Machine
end

section
/-! PROOF. What every step keeps: the clock and the record (O53), the invariant of the block (O44, O45), and the wait (O44,
O46). `step_shape` leaves an instruction, whose end and whose calls are known, or a new session. -/

namespace Sys2Proof.Machine

/-! ### Time -/

/-- The calls of an instruction are made within its time. -/
theorem Calls.within {i : Instr} {s w t : State} {written slept read : List Event} (h : Calls i s w t written slept read)
    {e : Event} (he : e ∈ written ++ slept ++ read) : s.env.now ≤ e.time ∧ e.time ≤ t.env.now := by
  obtain ⟨h1, h2⟩ := h.times
  rcases List.mem_append.1 he with he | he
  · rcases List.mem_append.1 he with he | he
    · cases h.writes with
      | none => cases he
      | frame c r =>
        rw [List.mem_singleton.1 he]
        exact ⟨Nat.le_refl _, Nat.le_trans h1 h2⟩
    · obtain ⟨-, h3, h4⟩ := h.sleeps e he
      exact ⟨h3, Nat.le_trans h4 h2⟩
  · cases h.reads with
    | none => cases he
    | read n r =>
      rw [List.mem_singleton.1 he]
      exact ⟨h1, h2⟩

@[simp] theorem takeInput_env (gap : Nat) (rest : List HostInput) (s : State) :
    (takeInput gap rest s).env = { s.env with host := rest, now := s.env.now + gap } := rfl

@[simp] theorem newSession_env (s : State) : (newSession s).env = s.env := rfl

/-- Settles O53: an instruction starts after the gap of its item, and its calls lie within its time. -/
theorem timeNeverGoesBack : Obligations.TimeNeverGoesBack := by
  unfold Obligations.TimeNeverGoesBack
  intro s t h
  cases step_shape h with
  | stays _ ht => exact ⟨ht ▸ Nat.le_refl _, [], by rw [ht, List.append_nil], by simp⟩
  | session gap rest _ _ ht => exact ⟨by simp [ht], [], by simp [ht], by simp⟩
  | ran gap rest e i _ _ _ hx =>
    obtain ⟨w, written, slept, read, hc⟩ := exec_calls hx
    have hgap : s.env.now ≤ (takeInput gap rest s).env.now := Nat.le_add_right _ _
    refine ⟨Nat.le_trans hgap (Nat.le_trans hc.times.1 hc.times.2), written ++ slept ++ read, ?_, fun e he => ?_⟩
    · rw [hc.trace, takeInput_env, List.append_assoc, List.append_assoc, List.append_assoc]
    · obtain ⟨h1, h2⟩ := hc.within he
      exact ⟨Nat.le_trans hgap h1, h2⟩

/-! ### The invariant of the block -/

theorem reset_inv : State.reset.Inv :=
  ⟨rfl, by decide, fun h => absurd rfl h, fun h => absurd h (by decide), by decide, fun _ => rfl, by decide, .inl rfl,
    by decide⟩

/-- Settles O44: the reset state is a literal. -/
theorem resetMeetsInvariant : Obligations.ResetMeetsInvariant := by
  unfold Obligations.ResetMeetsInvariant
  exact ⟨reset_inv, by decide, fun _ => by decide⟩

/-- The invariant speaks of no item of the host port and of no clock. -/
theorem takeInput_inv {s : State} (h : s.Inv) (gap : Nat) (rest : List HostInput) : (takeInput gap rest s).Inv :=
  ⟨h.idle, h.phaseLegal, h.featureSetKnown, h.pending, h.statusLegal, h.noWordAfterError, h.argCount, h.txbuf, h.rxbuf⟩

/-- A new session has the reset values, and nothing in flight that the catalog would have to fit. -/
theorem newSession_inv (s : State) : (newSession s).Inv :=
  ⟨reset_inv.idle, reset_inv.phaseLegal, reset_inv.featureSetKnown,
    fun h => absurd (show State.reset.phase = 3 from h) (by decide), reset_inv.statusLegal, reset_inv.noWordAfterError,
    reset_inv.argCount, reset_inv.txbuf, reset_inv.rxbuf⟩

/-- A phase that an instruction leaves is legal, and never `ResultReady`. -/
theorem phaseAfter_legal (i : Instr) {p : BitVec 3} (st : Word) (h : p.toNat ≤ 3) : (phaseAfter i p st).toNat ≤ 3 := by
  cases i
  case probe | iaqInit | measureIaq | measureTvoc | measureCo2Eq | measureRaw | readIaq | readTvoc | readCo2Eq | readRaw =>
    simp only [phaseAfter]
    split
    · decide
    · exact h
  all_goals exact h

/-- R123: `iaq_init` is not admitted before a probe. -/
theorem phase_ne_zero_of_iaqInit {s : State} (h : admitCmd .iaqInit (begin s) = .pass) : s.phase ≠ 0 := by
  obtain ⟨p, hp, -, hm, -⟩ := admit_pass h
  intro h0
  have hp0 : p.bits = 0 := hp.symm.trans h0
  cases p <;> first | exact absurd hp0 (by decide) | exact absurd hm (by decide)

/-- R120: among the last rule lines, those that leave `Unprobed` cache a feature-set word, but for `iaq_init`. -/
theorem sessionAfter_featureSetKnown {i : Instr} {x : Session} {w0 w1 : Word} (hk : x.phase ≠ 0 → x.fsValid = true)
    (hi : i = .iaqInit → x.phase ≠ 0) (h : (sessionAfter i x w0 w1).phase ≠ 0) :
    (sessionAfter i x w0 w1).fsValid = true := by
  cases i
  case probe | getFeatureSetVersion => rfl
  case iaqInit => exact hk (hi rfl)
  all_goals exact hk h

/-- R126: an instruction leaves `Unprobed` only with a feature-set word cached. -/
theorem Ended.featureSetKnown {i : Instr} {s t : State} (h : Ended i s t) (hk : s.phase ≠ 0 → s.fsValid = true)
    (ht : t.phase ≠ 0) : t.fsValid = true := by
  cases h with
  | failed e hf _ hp =>
    obtain ⟨-, -, hse, -⟩ := hf
    obtain ⟨-, -, -, hfv, -⟩ := session_fields hse
    refine hfv.trans (hk ?_)
    rcases hp with ⟨hp, -⟩ | ⟨-, -, -, ⟨-, hp⟩ | hp⟩
    · exact hp ▸ ht
    · rw [hp]; decide
    · rw [hp]; decide
  | full c u hi _ ha hu hpost =>
    have hse : t.session = sessionAfter i s.session u.word0 u.word1 := by rw [hpost, postOf_session, hu]
    obtain ⟨hp, -, -, hfv, -⟩ := session_fields hse
    refine hfv.trans (sessionAfter_featureSetKnown hk (fun hiaq => ?_) (hp ▸ ht))
    subst hiaq
    cases hi
    exact phase_ne_zero_of_iaqInit ha
  | crcCompute _ _ hc =>
    obtain ⟨hp, -, -, hfv, -⟩ := session_fields hc.2.1
    exact hfv.trans (hk fun h0 => ht (hp.trans h0))
  | crcVerify _ _ _ hc =>
    obtain ⟨hp, -, -, hfv, -⟩ := session_fields hc.2.1
    exact hfv.trans (hk fun h0 => ht (hp.trans h0))
  | started _ _ hp hc | wasRead _ _ _ hp hc | blocked _ _ _ hp hc =>
    obtain ⟨-, -, -, hfv, -⟩ := session_fields hc.2.1
    exact hfv.trans (hk (by rw [hp]; decide))

/-- R140: what is in flight after an instruction was in flight before it and nothing was issued, or it is what the
instruction, a split measure, has issued. -/
theorem Ports.inFlight {i : Instr} {s t : State} (h : Ports i s t) (he : Ended i s t) (ht : t.phase = 3) :
    (s.phase = 3 ∧ t.kind = s.kind ∧ t.pendCmd = s.pendCmd ∧ t.tWait = s.tWait) ∨ issueRecorded s t t.kind.cmd := by
  have hph : phaseAfter i s.phase t.status = 3 := he.phase.symm.trans ht
  have hmeasure : s.phase ≠ 3 → ∃ k : Kind, i = k.measureRequest := fun hs => (phaseAfter_eq_inFlight hph).resolve_left hs
  cases h with
  | silent hp htr =>
    obtain ⟨-, ⟨hpend, -, hwait⟩, -⟩ := traffic_fields htr
    exact .inl ⟨hp.1 ▸ ht, hp.2, hpend, hwait⟩
  | unacknowledged c s' f hi ha hs hw htr hst =>
    obtain ⟨k, rfl⟩ := hmeasure (phase_ne_of_admit ha)
    have h0 : t.status ≠ 0 := hst ▸ statusOf_ne_zero _
    rw [phaseAfter_of_error h0 (.inr fun k' => (measureRequest_ne k k').1)] at hph
    exact absurd hph (phase_ne_of_admit ha)
  | started k s' hi ha hs hw htr hst =>
    obtain ⟨-, hissue, -⟩ := traffic_fields htr
    subst hi
    rw [he.kind_of_measure ht (phase_ne_of_admit ha)]
    exact .inr (hs.recorded hissue)
  | exchanged c s' u hi hk ha =>
    obtain ⟨k, hm⟩ := hmeasure (phase_ne_of_admit ha)
    exact absurd hm (hk k)
  | wasRead k hi ha hr hst =>
    rw [hi, phaseAfter_readRequest k s.phase hst] at hph
    exact absurd hph (by decide)

/-- R18, R19, R35: the sizes of the buffers after an instruction. -/
theorem Calls.sizes {i : Instr} {s w t : State} {written slept read : List Event} (h : Calls i s w t written slept read)
    (hs : s.Inv) : t.narg.toNat ≤ 2 ∧ (t.txbuf = [] ∨ t.txbuf.length = 2 ∨ t.txbuf.length = 5 ∨ t.txbuf.length = 8) ∧
      t.rxbuf.length ≤ 9 := by
  have hw : t.narg.toNat ≤ 2 ∧ (t.txbuf = [] ∨ t.txbuf.length = 2 ∨ t.txbuf.length = 5 ∨ t.txbuf.length = 8) := by
    cases h.writes with
    | none hbuf =>
      obtain ⟨htx, -, -, hn⟩ := hbuf
      rw [htx, hn]
      exact ⟨hs.argCount, hs.txbuf⟩
    | frame c r _ _ hbuf hn =>
      have hl : t.txbuf.length = 2 + 3 * min (s.cfg.catalog.entry c).nArg.val 2 := by rw [hbuf, frameOf_length]; simp
      exact ⟨hn, by omega⟩
  refine ⟨hw.1, hw.2, ?_⟩
  have hrx : w.rxbuf.length ≤ 9 := h.rxbuf ▸ hs.rxbuf
  cases h.reads with
  | none hr => exact hr ▸ hrx
  | read n r hr =>
    rw [hr]
    cases r with
    | bytes bs => exact List.length_take_le 9 bs
    | nack => exact hrx
    | ioerr => exact hrx

theorem exec_inv {i : Instr} {s t : State} (hs : s.Inv) (h : exec i s = .next t) : t.Inv := by
  have he := exec_ended h
  obtain ⟨w, written, slept, read, hc⟩ := exec_calls h
  obtain ⟨hstatus, hidle⟩ := he.status
  obtain ⟨hnarg, htx, hrx⟩ := hc.sizes hs
  have hcfg : t.cfg = s.cfg := (exec_callsFollow h).cfg
  refine ⟨hidle, he.phase ▸ phaseAfter_legal i t.status hs.phaseLegal, he.featureSetKnown hs.featureSetKnown, fun h3 => ?_,
    he.legal, fun hk => ?_, hnarg, htx, hrx⟩
  · rw [hcfg]
    rcases (exec_ports h).inFlight he h3 with ⟨hs3, hkind, hpend, hwait⟩ | ⟨hpend, -, hwait⟩
    · rw [hkind, hpend, hwait]
      exact hs.pending hs3
    · exact ⟨hpend, hwait⟩
  · rcases hstatus with h0 | ⟨e, -, hwc⟩
    · exact absurd (by rw [h0]; decide) hk
    · exact hwc

/-- Settles O45: an instruction keeps the invariant, and a new session has it. -/
theorem stepKeepsInvariant : Obligations.StepKeepsInvariant := by
  unfold Obligations.StepKeepsInvariant
  intro s t hs h
  cases step_shape h with
  | stays _ ht => exact ht ▸ hs
  | session gap rest _ _ ht => exact ht ▸ newSession_inv _
  | ran gap rest e i _ _ _ hx => exact exec_inv (takeInput_inv hs gap rest) hx

/-! ### The wait -/

/-- The unsigned difference of R182 is the time that has passed, within the 64 bits of the clock. -/
theorem elapsed_of_le {now : Nat} {issue : BitVec 64} (h : issue.toNat ≤ now) (hn : now < 2 ^ 64) :
    (BitVec.ofNat 64 now - issue).toNat = now - issue.toNat := by
  have hnow : (BitVec.ofNat 64 now).toNat = now := by rw [BitVec.toNat_ofNat, Nat.mod_eq_of_lt hn]
  rw [BitVec.toNat_sub_of_le (by rw [BitVec.le_def, hnow]; exact h), hnow]

/-- R103: the wait of the last command issued is over when an instruction has written and waited. -/
theorem Calls.wait_over {i : Instr} {s w t : State} {written slept read : List Event} (h : Calls i s w t written slept read)
    (hs : s.waitKept) (hn : t.env.now < 2 ^ 64) : t.tIssue.toNat ≤ w.env.now ∧
      (t.tWait.toNat ≤ (BitVec.ofNat 64 w.env.now - t.tIssue).toNat → t.tIssue.toNat + t.tWait.toNat ≤ w.env.now) := by
  obtain ⟨h1, h2⟩ := h.times
  have hle : t.tIssue.toNat ≤ w.env.now := by
    rcases h.issueTime with hi | ⟨m, hm, hi⟩
    · rw [hi]
      exact Nat.le_trans hs.1 h1
    · rw [hi, BitVec.toNat_ofNat]
      exact Nat.le_trans (Nat.mod_le _ _) hm
  refine ⟨hle, fun hw => ?_⟩
  rw [elapsed_of_le hle (by omega)] at hw
  omega

/-- No instruction writes or reads before the wait is over, and the wait is kept. -/
theorem exec_waitKept {i : Instr} {s t : State} (hs : s.waitKept) (h : exec i s = .next t) (hn : t.env.now < 2 ^ 64) :
    t.waitKept ∧ ∀ e ∈ newEvents s t,
      (e.isWrite = true → s.tIssue.toNat + s.tWait.toNat ≤ e.time) ∧
      (e.isRead = true → t.tIssue.toNat + t.tWait.toNat ≤ e.time) := by
  obtain ⟨w, written, slept, read, hc⟩ := exec_calls h
  obtain ⟨hissue, hover⟩ := hc.wait_over hs hn
  obtain ⟨h1, h2⟩ := hc.times
  refine ⟨⟨Nat.le_trans hissue h2, fun hp => ?_⟩, fun e he => ⟨fun hw => ?_, fun hr => ?_⟩⟩
  · rcases hc.waited with ⟨-, hti, htw, hph⟩ | ⟨-, hst, k, rfl⟩ | hw
    · rw [hti, htw]
      have hsp : s.phase ≠ 3 := hph.elim (fun he => he ▸ hp) id
      exact Nat.le_trans (hs.2 hsp) (Nat.le_trans h1 h2)
    · rw [(exec_ended h).phase, hst, phaseAfter_measureRequest] at hp
      exact absurd rfl hp
    · exact Nat.le_trans (hover hw) h2
  · obtain ⟨addr, bytes, r, hcall⟩ := e.isWrite_iff.1 hw
    have hm := hc.write_of_mem he hcall
    cases hc.writes with
    | none => cases hm
    | frame c r' _ ha =>
      rw [List.mem_singleton.1 hm]
      exact hs.2 (phase_ne_of_admit ha)
  · obtain ⟨addr, n, r, hcall⟩ := e.isRead_iff.1 hr
    have hm := hc.read_of_mem he hcall
    rcases hc.waited with ⟨hnil, -⟩ | ⟨hnil, -⟩ | hw
    · rw [hnil] at hm
      cases hm
    · rw [hnil] at hm
      cases hm
    · cases hc.reads with
      | none => cases hm
      | read n' r' =>
        rw [List.mem_singleton.1 hm]
        exact hover hw

/-- Time between two requests keeps the wait. -/
theorem takeInput_waitKept {s : State} (h : s.waitKept) (gap : Nat) (rest : List HostInput) :
    (takeInput gap rest s).waitKept :=
  ⟨Nat.le_add_right_of_le h.1, fun hp => Nat.le_add_right_of_le (h.2 hp)⟩

/-- Settles O46: an instruction keeps the wait, and a new session has no command to wait for. -/
theorem noBusCallBeforeTheWait : Obligations.NoBusCallBeforeTheWait := by
  unfold Obligations.NoBusCallBeforeTheWait
  intro s t hs h hn
  cases step_shape h with
  | stays _ ht =>
    have hnil : newEvents s t = [] := newEvents_of_trace (by rw [ht, List.append_nil])
    exact ⟨ht ▸ hs, by simp [hnil]⟩
  | session gap rest _ _ ht =>
    have hnil : newEvents s t = [] := newEvents_of_trace (by rw [ht, newSession_env, takeInput_env, List.append_nil])
    subst ht
    exact ⟨⟨Nat.zero_le _, fun _ => Nat.zero_le _⟩, by simp [hnil]⟩
  | ran gap rest e i _ _ _ hx =>
    have hkept := exec_waitKept (takeInput_waitKept hs gap rest) hx hn
    exact hkept

end Sys2Proof.Machine
end

section
/-! PROOF. The step (O6, O7), a new session (O43), and the reads that fault (O55, O56). -/

namespace Sys2Proof.Machine

/-! ### The step -/

/-- R3, R6: with an instruction at the host port, a step runs it. -/
theorem step_decoded {s : State} {gap : Nat} {e : Encoded} {rest : List HostInput} {i : Instr} (ht : s.txn = .idle)
    (hh : s.env.host = { gap := gap, item := .encoded e } :: rest) (hd : decode s.cfg.catalog e = .ok i) :
    step s = exec i (takeInput gap rest s) := by
  unfold step
  rw [if_neg (not_not_intro ht), hh]
  simp only [hd]

/-- R61: what decodes to no instruction is refused by name (log 12). -/
theorem step_rejected {s : State} {gap : Nat} {e : Encoded} {rest : List HostInput} {why : Reject} (ht : s.txn = .idle)
    (hh : s.env.host = { gap := gap, item := .encoded e } :: rest) (hd : decode s.cfg.catalog e = .error why) :
    step s = .refused (.notACommand why) := by
  unfold step
  rw [if_neg (not_not_intro ht), hh]
  simp only [hd]

/-- R190: with a new session at the host port, a step starts it. -/
theorem step_newSession {s : State} {gap : Nat} {rest : List HostInput} (ht : s.txn = .idle)
    (hh : s.env.host = { gap := gap, item := .newSession } :: rest) :
    step s = .next (newSession (takeInput gap rest s)) := by
  unfold step
  rw [if_neg (not_not_intro ht), hh]

/-- Settles O6: of the items at the host port, one that decodes is run. -/
theorem stepRunsDecodedInstruction : Obligations.StepRunsDecodedInstruction := by
  unfold Obligations.StepRunsDecodedInstruction
  intro s gap e rest i ht hh hd
  exact step_decoded ht hh hd

/-- Settles O7: the three ways a step finds no instruction to run. -/
theorem stepWithoutInstruction : Obligations.StepWithoutInstruction := by
  unfold Obligations.StepWithoutInstruction
  refine ⟨fun s hs => if_pos hs, fun s hs => ?_, fun s gap bytes rest why ht hh hd => step_rejected ht hh hd⟩
  unfold step
  rw [hs]
  exact ite_self _

/-- Settles O43: the reset state is a literal, and a new session takes its registers over. -/
theorem resetLeavesSpecifiedValues : Obligations.ResetLeavesSpecifiedValues := by
  unfold Obligations.ResetLeavesSpecifiedValues
  refine ⟨⟨rfl, rfl, rfl, rfl, rfl, rfl, rfl, rfl, rfl, rfl, rfl⟩, fun s gap rest ht hh => ?_⟩
  exact ⟨_, step_newSession ht hh, rfl, rfl, rfl, rfl, rfl, rfl, rfl, rfl, rfl, rfl, rfl, rfl⟩

/-! ### Reads of what was never written -/

/-- Settles O55: the counts are at most 3, so below them the registers are those of the list. -/
theorem registerBeyondCountFaults : Obligations.RegisterBeyondCountFaults := by
  unfold Obligations.RegisterBeyondCountFaults
  refine fun i s => ⟨fun h => if_neg (Nat.not_lt.2 h), fun h => if_neg (Nat.not_lt.2 h), fun h => ?_, fun h h2 => ?_⟩
  · have h3 : i < 3 := Nat.lt_of_lt_of_le h (Nat.le_of_lt_succ s.wcount.isLt)
    rw [readWord, if_pos h]
    match i, h3 with
    | 0, _ => rfl
    | 1, _ => rfl
    | 2, _ => rfl
  · rw [readArg, if_pos h]
    match i, h2 with
    | 0, _ => rfl
    | 1, _ => rfl

/-- R17, R170: what the fields of a legal `STATUS` are, by its `ERR_KIND`. -/
theorem legalStatus_fields {st : Word} (h : legalStatus st = true) :
    statusReserved st = 0 ∧ errStage st ≠ 3 ∧
      ((errKind st = 0 ∧ errSub st = 0) ∨
       ((errKind st = 1 ∨ errKind st = 2) ∧ (errSub st = 1 ∨ errSub st = 2)) ∨
       ((errKind st = 3 ∨ errKind st = 5) ∧ errSub st = 1) ∨
       (errKind st = 4 ∧ errSub st ≠ 0 ∧ (errSub st).toNat < 6)) := by
  have hkind : ∀ n : Nat, (errKind st).toNat = n → errKind st = BitVec.ofNat 4 n := fun n hn => by
    rw [← hn, BitVec.ofNat_toNat, BitVec.setWidth_eq]
  unfold legalStatus at h
  rw [Bool.and_eq_true, beq_iff_eq] at h
  refine ⟨h.1, ?_⟩
  split at h
  case h_3 hk =>
    obtain ⟨-, ⟨hsub, -⟩, hstage⟩ : _ ∧ _ ∧ _ := by simpa using h
    exact ⟨by rcases hstage with hg | hg <;> rw [hg] <;> decide, .inr (.inl ⟨.inr (hkind 2 hk), hsub⟩)⟩
  case h_5 hk =>
    obtain ⟨-, -, hsub⟩ : _ ∧ _ ∧ (_ ∨ _) := by simpa using h
    rcases hsub with ⟨hs, hg⟩ | ⟨((hs | hs) | hs) | hs, hg⟩
    all_goals
      rw [hs, hg]
      exact ⟨by decide, .inr (.inr (.inr ⟨hkind 4 hk, by decide, by decide⟩))⟩
  case h_7 => simp at h
  all_goals simp_all

/-- Settles O56: each clause contradicts what the fields of a legal status are. -/
theorem illegalStatusFaults : Obligations.IllegalStatusFaults := by
  unfold Obligations.IllegalStatusFaults
  intro s hbad
  refine if_neg fun hl => ?_
  obtain ⟨hr, hs, hk⟩ := legalStatus_fields hl
  generalize errKind s.status = kind at *
  generalize errSub s.status = sub at *
  rcases hk with ⟨rfl, rfl⟩ | ⟨rfl | rfl, rfl | rfl⟩ | ⟨rfl | rfl, rfl⟩ | ⟨rfl, h0, h6⟩
  case inr.inr.inr =>
    have h6 : ¬6 ≤ sub.toNat := Nat.not_le.2 h6
    simp_all
  all_goals simp_all

end Sys2Proof.Machine
end

section
/-! PROOF. The CRC unit (O8, O9, O10). One turn of the inner loop can be undone, so a checksum is injective in each of the two
bytes it is computed from. -/

namespace Sys2Proof.Machine

/-! ### The CRC requests -/

theorem exec_crcCompute {a0 : BitVec 32} (s : State) (h : a0.toNat < 2 ^ 16) :
    exec (.crcCompute a0) s =
      .next (ret [(crc8 (a0Byte0 a0) (a0Byte1 a0)).setWidth 16] ((begin s).setCrc (crc8 (a0Byte0 a0) (a0Byte1 a0)))) := by
  simp [exec, execCrcCompute, a0TooWide_eq_false h]

theorem exec_crcVerify {a0 : BitVec 32} {a1 : BitVec 16} (s : State) (h0 : a0.toNat < 2 ^ 16) (h1 : a1.toNat < 2 ^ 8) :
    exec (.crcVerify a0 a1) s =
      .next (ret [] (((begin s).setCrc (crc8 (a0Byte0 a0) (a0Byte1 a0))).setB
        (verify (a0Byte0 a0) (a0Byte1 a0) (a1Byte a1)))) := by
  simp [exec, execCrcVerify, a0TooWide_eq_false h0, a1TooWide_eq_false h1]

theorem verify_eq_decide (b0 b1 c : Byte) : verify b0 b1 c = decide (crc8 b0 b1 = c) := by
  rw [Bool.eq_iff_iff, verify_iff, decide_eq_true_iff]

theorem verify_eq_false_iff (b0 b1 c : Byte) : verify b0 b1 c = false ↔ crc8 b0 b1 ≠ c := by
  rw [verify_eq_decide, decide_eq_false_iff_not]

/-- Settles O8: the operand fits, or it is refused; the four checksums are computed. -/
theorem crcComputeReturnsChecksum : Obligations.CrcComputeReturnsChecksum := by
  unfold Obligations.CrcComputeReturnsChecksum
  refine ⟨fun a0 s h => ⟨_, rfl, exec_crcCompute s h⟩, fun a0 s h => ?_, by decide +kernel⟩
  exact exec_crcCompute_tooWide s ((a0TooWide_iff a0).2 h)

/-- Settles O9: `Verify` compares all eight bits, so the checksum itself is the only byte that passes. -/
theorem crcVerifyReturnsMatch : Obligations.CrcVerifyReturnsMatch := by
  unfold Obligations.CrcVerifyReturnsMatch
  refine ⟨fun a0 a1 s h0 h1 => ⟨_, rfl, ?_⟩, fun a0 a1 s h => ?_, fun b0 b1 => ⟨crc8 b0 b1, fun c' => ?_⟩,
    by decide +kernel⟩
  · rw [exec_crcVerify s h0 h1, verify_eq_decide]
    rfl
  · exact exec_crcVerify_tooWide s (h.imp (a0TooWide_iff a0).2 (a1TooWide_iff a1).2)
  · rw [verify_iff, eq_comm]

/-! ### What the checksum tells apart -/

/-- A turn of the inner loop undone: the lowest bit says whether the polynomial was folded in. -/
def crcBitUndo (r : Byte) : Byte := if r.getLsbD 0 then ((r ^^^ 0x31#8) >>> 1) ||| 0x80#8 else r >>> 1

theorem crcBit_injective : Function.Injective crcBit :=
  Function.LeftInverse.injective (g := crcBitUndo) (by unfold Function.LeftInverse; decide)

/-- R70's step for one byte folds it in, and then runs eight injective turns. -/
theorem crcByte_eq_iff {r r' b b' : Byte} : crcByte r b = crcByte r' b' ↔ r ^^^ b = r' ^^^ b' := by
  unfold crcByte
  simp only [crcBit_injective.eq_iff]

theorem crc8_right_injective (b0 : Byte) : Function.Injective (crc8 b0) := fun _ _ h =>
  (BitVec.xor_right_inj _).1 (crcByte_eq_iff.1 h)

theorem crc8_left_injective (b1 : Byte) : Function.Injective (crc8 · b1) := fun _ _ h =>
  (BitVec.xor_right_inj _).1 (crcByte_eq_iff.1 ((BitVec.xor_left_inj _).1 (crcByte_eq_iff.1 h)))

/-- Settles O10: with one of the three bytes changed, the checksum and the third byte no longer agree. -/
theorem singleByteErrorIsDetected : Obligations.SingleByteErrorIsDetected := by
  unfold Obligations.SingleByteErrorIsDetected
  intro b0 b1 c b' h
  have hc : crc8 b0 b1 = c := (verify_iff b0 b1 c).1 h
  refine ⟨fun hne => ?_, fun hne => ?_, fun hne => ?_⟩
  · exact (verify_eq_false_iff _ _ _).2 fun he => hne (crc8_left_injective b1 (he.trans hc.symm))
  · exact (verify_eq_false_iff _ _ _).2 fun he => hne (crc8_right_injective b0 (he.trans hc.symm))
  · exact (verify_eq_false_iff _ _ _).2 fun he => hne (he.symm.trans hc)

end Sys2Proof.Machine
end

section
/-! PROOF. The gates of a command (O14, O15, O16, O18). `exec_refused`, `exec_stopped` and the like say that the checks of R177
decide first; what is left is how each check comes out. -/

namespace Sys2Proof.Machine

/-- R10: the codes up to 4 are those of the phases. -/
theorem ofBits_isSome (b : BitVec 3) : (Phase.ofBits b).isSome = decide (b.toNat ≤ 4) := by
  revert b
  decide

theorem exists_phase {s : State} (h : s.phase.toNat ≤ 4) : ∃ p : Phase, s.phase = p.bits := by
  obtain ⟨p, hp⟩ := Option.isSome_iff_exists.1 ((ofBits_isSome s.phase).trans (decide_eq_true h))
  exact ⟨p, readPhase_ok (by rw [readPhase, hp])⟩

/-- R10: a code that is never written stops a rule that reads it. -/
theorem readPhase_illegal {s : State} (h : 5 ≤ s.phase.toNat) : readPhase s = .error (.illegalPhase s.phase) := by
  have hn : Phase.ofBits s.phase = none := by
    rw [← Option.not_isSome_iff_eq_none, ofBits_isSome, decide_eq_true_iff]
    omega
  rw [readPhase, hn]

/-- The column of 41_catalog section 1, in phases and in their codes. -/
theorem phaseAllows_iff (c : Cmd) (p : Phase) : phaseAllows c p.bits ↔ p ∈ c.allowedPhase := by
  cases c <;> cases p <;> simp [phaseAllows, Cmd.allowedPhase, Phase.bits]

/-- R177 step 3: nothing is issued while a measurement is in flight. -/
theorem admit_inFlight (c : Cmd) {s : State} (h : s.phase = 3) : admitCmd c (begin s) = .refuse .inFlight := by
  have hr : readPhase (begin s) = .ok .measurementInFlight := readPhase_of_bits h
  simp [admitCmd, hr]

/-- R177 step 4: a phase that is not in the column of the command. -/
theorem admit_sequencing {c : Cmd} {s : State} {p : Phase} (hp : s.phase = p.bits) (hne : p ≠ .measurementInFlight)
    (hm : p ∉ c.allowedPhase) : admitCmd c (begin s) = .refuse .sequencing := by
  have hr : readPhase (begin s) = .ok p := readPhase_of_bits hp
  simp [admitCmd, hr, hne, Catalog.lookup, hm]

/-- R126: without a feature-set version above the threshold the gate refuses. -/
theorem fsGateCheck_refuse {s : State} (h : ¬featureSetOpen s) : fsGateCheck s = .refuse .featureSet := by
  unfold fsGateCheck
  by_cases hv : s.fsValid = false
  · rw [if_pos hv]
  · have hle : fsVersion s.fsReg ≤ s.cfg.fsThreshold := by
      rw [BitVec.le_def, fsVersion, BitVec.extractLsb'_toNat, Nat.shiftRight_zero]
      exact Nat.not_lt.1 fun hlt => h ⟨by simpa using hv, hlt⟩
    rw [if_neg hv, if_pos hle]

/-- R177 step 5: a gated command with the gate closed. -/
theorem admit_featureSet {c : Cmd} {s : State} (hg : gatedByFeatureSet c) (hp : s.phase = 2) (h : ¬featureSetOpen s) :
    admitCmd c (begin s) = .refuse .featureSet := by
  have hr : readPhase (begin s) = .ok .iaqInitialized := readPhase_of_bits hp
  have hf : fsGateCheck (begin s) = .refuse .featureSet := fsGateCheck_refuse h
  rcases hg with rfl | rfl <;> simp [admitCmd, hr, hf, Catalog.lookup, Cmd.allowedPhase, Cmd.fsGate]

theorem admit_illegal (c : Cmd) {s : State} (h : 5 ≤ s.phase.toNat) :
    admitCmd c (begin s) = .stop (.illegalPhase s.phase) := by
  have hr : readPhase (begin s) = .error (.illegalPhase s.phase) := readPhase_illegal h
  simp [admitCmd, hr]

theorem readAdmit_otherKind {k : Kind} {s : State} (hp : s.phase = 3) (hk : k ≠ s.kind) :
    readAdmit k (begin s) = .refuse .inFlight := by
  have hr : readPhase (begin s) = .ok .measurementInFlight := readPhase_of_bits hp
  have hk : (begin s).kind ≠ k := hk.symm
  simp [readAdmit, hr, hk]

theorem readAdmit_sequencing (k : Kind) {s : State} {p : Phase} (hp : s.phase = p.bits) (hne : p ≠ .measurementInFlight) :
    readAdmit k (begin s) = .refuse .sequencing := by
  have hr : readPhase (begin s) = .ok p := readPhase_of_bits hp
  simp [readAdmit, hr, hne]

theorem readAdmit_illegal (k : Kind) {s : State} (h : 5 ≤ s.phase.toNat) :
    readAdmit k (begin s) = .stop (.illegalPhase s.phase) := by
  have hr : readPhase (begin s) = .error (.illegalPhase s.phase) := readPhase_illegal h
  simp [readAdmit, hr]

/-! ### The statements -/

/-- Settles O14: the column of no command holds `MeasurementInFlight`, and the CRC requests do not read `PHASE`. -/
theorem inFlightGuard : Obligations.InFlightGuard := by
  unfold Obligations.InFlightGuard
  intro s
  refine ⟨fun hp => ⟨fun i c hi hv => ?_, fun k hk => ?_, fun a0 h => ?_, fun a0 a1 h0 h1 => ?_⟩, fun h4 h3 k => ?_⟩
  · exact exec_refused hi hv (admit_inFlight c hp)
  · exact exec_read_refused (readAdmit_otherKind hp hk)
  · exact ⟨_, exec_crcCompute s h, rfl, rfl⟩
  · exact ⟨_, exec_crcVerify s h0 h1, rfl, rfl⟩
  · obtain ⟨p, hp⟩ := exists_phase h4
    have hne : p ≠ .measurementInFlight := by
      rintro rfl
      exact h3 hp
    exact exec_read_refused (readAdmit_sequencing k hp hne)

/-- Settles O15: a phase outside the column is that of a measurement in flight, or another. -/
theorem phaseGateRefuses : Obligations.PhaseGateRefuses := by
  unfold Obligations.PhaseGateRefuses
  intro i c s hi hv h4 hna
  by_cases h3 : s.phase = 3
  · rw [if_pos h3]
    exact exec_refused hi hv (admit_inFlight c h3)
  · obtain ⟨p, hp⟩ := exists_phase h4
    have hne : p ≠ .measurementInFlight := by
      rintro rfl
      exact h3 hp
    rw [if_neg h3]
    exact exec_refused hi hv (admit_sequencing hp hne fun hm => hna (hp ▸ (phaseAllows_iff c p).2 hm))

/-- Settles O18: the gate of the instruction stops on a code that names no phase. -/
theorem illegalPhaseFaults : Obligations.IllegalPhaseFaults := by
  unfold Obligations.IllegalPhaseFaults
  intro s h
  exact ⟨fun i c hi hv => exec_stopped hi hv (admit_illegal c h), fun k => exec_read_stopped (readAdmit_illegal k h)⟩

@[simp] theorem issues_readRequest (k : Kind) : k.readRequest.issues = none := by cases k <;> rfl

/-- Where its command may be issued and its operands are valid, an instruction is not refused before any bus I/O. -/
theorem not_refusedBy_of_mayIssue {i : Instr} {c : Cmd} {s : State} (hi : i.issues = some c) (hv : i.operandsValid)
    (hm : mayIssue c s) (e : Error) : ¬RefusedBy i s e := by
  intro h
  cases h with
  | code code hc => rw [hc] at hi; cases hi
  | width hn => exact hn hv
  | range a0 _ hn => exact hn hv
  | admitCmd c' hi' _ ha =>
    obtain rfl : c = c' := Option.some.inj (hi.symm.trans hi')
    cases (admit_of_mayIssue hm).symm.trans ha
  | readAdmit k hr =>
    rw [hr, issues_readRequest] at hi
    cases hi

/-- An instruction in mode `FULL` that runs ends well, or with an error of its transaction. -/
theorem close_full_status {i : Instr} {c : Cmd} (hi : i.issues = some c)
    (hk : ∀ k : Kind, i ≠ k.measureRequest ∧ i ≠ k.blockingRequest ∧ i ≠ k.readRequest) (s : State) :
    ((runFull c s).close false (postOf i)).status = 0 ∨ errStage ((runFull c s).close false (postOf i)).status ≠ 0 := by
  cases hr : runFull c s with
  | ok u => exact .inl (postOf_status hi hk u).1
  | err e u =>
    right
    rw [Run.close, raise_status, errStage_statusOf]
    exact runFull_err_stageCode hr

/-- Settles O16: with the gate open the instruction runs, and an error of its transaction has another stage. -/
theorem featureSetGateRefuses : Obligations.FeatureSetGateRefuses := by
  unfold Obligations.FeatureSetGateRefuses
  refine fun i c s hi hg hv hp => ⟨fun hn => exec_refused hi hv (admit_featureSet hg hp hn), fun ho t h hst => ?_⟩
  have hallow : phaseAllows c s.phase := by rcases hg with rfl | rfl <;> exact hp
  have hgate : ∀ k : Kind, k.cmd ≠ c := fun k hk => by
    subst hk
    cases k <;> rcases hg with hg | hg <;> cases hg
  cases exec_shape h with
  | refused e hr => exact not_refusedBy_of_mayIssue hi hv ⟨hallow, fun _ => ho⟩ e hr
  | crcCompute a0 hc => rw [hc] at hi; cases hi
  | crcVerify a0 a1 hc => rw [hc] at hi; cases hi
  | full c' s' hi' hk _ _ ht =>
    have hend := close_full_status hi' hk s'
    rw [← ht, hst] at hend
    exact absurd hend (by decide)
  | started k s' hm =>
    rw [hm, issues_measureRequest] at hi
    exact hgate k (Option.some.inj hi)
  | wasRead k hm =>
    rw [hm, issues_readRequest] at hi
    cases hi
  | blocked k s' hm =>
    rw [hm, issues_blockingRequest] at hi
    exact hgate k (Option.some.inj hi)

end Sys2Proof.Machine
end

section
/-! PROOF. What the read path makes of an answer (O20), and requests whose write or read fails (O21, O22, O23). The bytes of a
response are taken triple by triple, as `verifyTriples` does. -/

namespace Sys2Proof.Machine

/-! ### The triples of a response -/

theorem badTriple_zero (b0 b1 c : Byte) (rest : List Byte) : badTriple (b0 :: b1 :: c :: rest) 0 = !verify b0 b1 c := rfl

theorem badTriple_succ (b0 b1 c : Byte) (rest : List Byte) (i : Nat) :
    badTriple (b0 :: b1 :: c :: rest) (i + 1) = badTriple rest i := rfl

/-- Word `i` of a response. -/
def responseWord (bs : List Byte) (i : Nat) : Word := wordOf (bs.getD (3 * i) 0) (bs.getD (3 * i + 1) 0)

theorem exists_triple {bs : List Byte} {m : Nat} (h : bs.length = 3 * (m + 1)) :
    ∃ b0 b1 c rest, bs = b0 :: b1 :: c :: rest ∧ rest.length = 3 * m := by
  match bs, h with
  | b0 :: b1 :: c :: rest, h => exact ⟨b0, b1, c, rest, rfl, by simp only [List.length_cons] at h; omega⟩

/-- A response whose triples all verify is the triples of its words. -/
theorem triples_of_good : ∀ (m : Nat) (bs : List Byte), bs.length = 3 * m → (∀ i < m, badTriple bs i = false) →
    bs = triples ((List.range m).map (responseWord bs))
  | 0, bs, hl, _ => List.length_eq_zero_iff.1 hl
  | m + 1, bs, hl, hg => by
    obtain ⟨b0, b1, c, rest, rfl, hr⟩ := exists_triple hl
    have hv : crc8 b0 b1 = c := (verify_iff _ _ _).1 (by simpa [badTriple_zero] using hg 0 (by omega))
    have hrest := triples_of_good m rest hr fun i hi => by
      rw [← badTriple_succ b0 b1 c]
      exact hg (i + 1) (by omega)
    have hw : (List.range (m + 1)).map (responseWord (b0 :: b1 :: c :: rest)) =
        wordOf b0 b1 :: (List.range m).map (responseWord rest) := by
      rw [List.range_succ_eq_map, List.map_cons, List.map_map]
      rfl
    rw [hw, triples_cons, hiByte_wordOf, loByte_wordOf, hv, ← hrest]

/-- R106: the first triple that fails is the one reported. -/
theorem verifyTriples_bad : ∀ (i m : Nat) (bs : List Byte) (n : Nat) (s : State), bs.length = 3 * m → i < m →
    badTriple bs i = true → (∀ j < i, badTriple bs j = false) →
    ∃ s', verifyTriples n bs s = .err (.crcMismatch (Fin.ofNat 3 (n + i))) s'
  | _, 0, _, _, _, _, hi, _, _ => absurd hi (Nat.not_lt_zero _)
  | 0, m + 1, bs, n, s, hl, _, hb, _ => by
    obtain ⟨b0, b1, c, rest, rfl, -⟩ := exists_triple hl
    have hv : ¬verify b0 b1 c = true := by simpa [badTriple_zero] using hb
    exact ⟨_, if_neg hv⟩
  | i + 1, m + 1, bs, n, s, hl, hi, hb, hg => by
    obtain ⟨b0, b1, c, rest, rfl, hr⟩ := exists_triple hl
    have hv : verify b0 b1 c = true := by simpa [badTriple_zero] using hg 0 (by omega)
    obtain ⟨s', hs'⟩ := verifyTriples_bad i m rest (n + 1) (s.setCrc (crc8 b0 b1)) hr (by omega)
      (by rwa [badTriple_succ] at hb) fun j hj => by
        rw [← badTriple_succ b0 b1 c]
        exact hg (j + 1) (by omega)
    refine ⟨s', (if_pos hv).trans ?_⟩
    rw [hs', Nat.add_assoc, Nat.add_comm 1 i]

/-- R170: the status of a checksum mismatch. -/
theorem statusOf_crcMismatch {i : Nat} (h : i < 3) :
    statusOf (.crcMismatch (Fin.ofNat 3 i)) = BitVec.ofNat 16 (0x0813 + 0x0100 * i) := by
  match i, h with
  | 0, _ => decide
  | 1, _ => decide
  | 2, _ => decide

/-- R104, R106: an answer that is not good fails, with its status. -/
theorem receive_fails {m : Nat} {s : State} (h3 : m ≤ 3) (hbad : readStatus m (nextRead s).result ≠ 0) :
    ∃ e s', receive m s = .err e s' ∧ statusOf e = readStatus m (nextRead s).result := by
  unfold receive
  cases hr : (nextRead s).result with
  | nack => exact ⟨_, _, rfl, (by decide : statusOf (.commRead .nack) = 0x0812)⟩
  | ioerr => exact ⟨_, _, rfl, (by decide : statusOf (.commRead .ioerr) = 0x0822)⟩
  | bytes bs =>
    simp only [readStatus, hr] at hbad ⊢
    by_cases hl : bs.length = 3 * m
    · simp only [hl, ne_eq, not_true, if_false, if_true] at hbad ⊢
      cases hf : (List.range m).find? (badTriple bs) with
      | none => simp [hf] at hbad
      | some i =>
        obtain ⟨hb, hi, hg⟩ := List.find?_range_eq_some.1 hf
        have hi : i < m := List.mem_range.1 hi
        have htk : bs.take 9 = bs := List.take_of_length_le (by omega)
        obtain ⟨s', hv⟩ := verifyTriples_bad i m bs 0 (((busRead (3 * m) s).setRxbuf bs).setTxn .verify) hl hi hb
          fun j hj => by simpa using hg j hj
        refine ⟨_, s', ?_, statusOf_crcMismatch (by omega)⟩
        rw [htk, verifyPath, State.setRxbuf_rxbuf, hv, Nat.zero_add]
        rfl
    · exact ⟨_, _, by rw [if_neg hl], by rw [if_pos hl]; decide⟩

theorem readPath_fails {c : Cmd} {s : State} {r : ReadResult} (hn : (s.cfg.catalog.entry c).nResp.val ≠ 0)
    (hr : readAnswers s r) (hbad : readStatus (s.cfg.catalog.entry c).nResp.val r ≠ 0) :
    ∃ e s', readPath c s = .err e s' ∧ statusOf e = readStatus (s.cfg.catalog.entry c).nResp.val r := by
  have hrr : (nextRead (s.setTxn .read)).result = r := nextRead_of_readAnswers hr
  have hlt := (s.cfg.catalog.entry c).nResp.isLt
  rw [readPath_def, if_neg hn]
  exact hrr ▸ receive_fails (by omega) (hrr.symm ▸ hbad)

/-- The status of a response of the right length says which triple fails first. -/
theorem readStatus_bytes {m i : Nat} {bs : List Byte} (hl : bs.length = 3 * m) (hi : i < m) (hb : badTriple bs i = true)
    (hg : ∀ j < i, badTriple bs j = false) : readStatus m (.bytes bs) = BitVec.ofNat 16 (0x0813 + 0x0100 * i) := by
  have hf : (List.range m).find? (badTriple bs) = some i :=
    List.find?_range_eq_some.2 ⟨hb, List.mem_range.2 hi, fun j hj => by simp [hg j hj]⟩
  simp [readStatus, hl, hf]

/-- Settles O20: a good response is the triples of its words, and a bad one stops `verifyTriples` at its first bad triple. -/
theorem readPathVerifiesEveryTriple : Obligations.ReadPathVerifiesEveryTriple := by
  unfold Obligations.ReadPathVerifiesEveryTriple
  intro c m bs s hn hm hr hl
  have h3 : m ≤ 3 := by have := (s.cfg.catalog.entry c).nResp.isLt; omega
  refine ⟨fun hg => ?_, fun i hi hb hg => ?_⟩
  · have hlen : ((List.range m).map (responseWord bs)).length = m := by simp
    have hbs := triples_of_good m bs hl hg
    obtain ⟨t, ht, -, -, -, -, -, hwc, hws, -⟩ := readPath_triples (hn.trans hlen.symm) fun _ => hbs ▸ hr
    rw [hlen] at hwc hws
    exact ⟨t, ht, hwc, hws⟩
  · have hst := readStatus_bytes hl hi hb hg
    have hne : readStatus m (.bytes bs) ≠ 0 := by
      rw [hst, ← statusOf_crcMismatch (by omega)]
      exact statusOf_ne_zero _
    obtain ⟨e, t, ht, he⟩ := readPath_fails (hn ▸ hm) hr (hn.symm ▸ hne)
    obtain ⟨-, -, hw⟩ := readPath_err_keeps ht
    exact ⟨t, e, ht, by rw [he, hn, hst], hw⟩

/-! ### A write that fails -/

/-- A raise leaves an error, no word, and the session but for the phase after an error of the read path of a read. -/
theorem raise_failed (isRead : Bool) (e : Error) (s : State) :
    failed (raise isRead e s) (statusOf e)
      { s.session with phase := if isRead && e.stageCode == 2 then 2 else s.phase } := by
  rw [raise_eq]
  exact ⟨rfl, rfl, rfl, rfl⟩

/-- R156: an error of the read path of a read ends the measurement. -/
theorem raise_read_failed {e : Error} (h : e.stageCode = 2) (s : State) :
    failed (raise true e s) (statusOf e) { s.session with phase := 2 } := by
  have hf := raise_failed true e s
  rw [h] at hf
  exact hf

/-- A write that is not acknowledged raises its error in each mode that writes (R102, R170). -/
theorem run_unacknowledged {s : State} (h : (nextWrite s).result ≠ .ack) :
    ∃ f, (∀ c, runFull c s = .err (.commWrite f) (notIssued s) ∧ runWriteOnly c s = .err (.commWrite f) (notIssued s)) ∧
      statusOf (.commWrite f) = if (nextWrite s).result = .nack then 0x0412 else 0x0422 := by
  have hrun (f : CommFailure) (hw : ∀ c, writePath c s = .err (.commWrite f) (notIssued s)) (c : Cmd) :
      runFull c s = .err (.commWrite f) (notIssued s) ∧ runWriteOnly c s = .err (.commWrite f) (notIssued s) := by
    simp [runFull, runWriteOnly, hw, Run.andThen]
  cases hr : (nextWrite s).result with
  | ack => exact absurd hr h
  | nack => exact ⟨.nack, hrun .nack fun c => by rw [writePath, hr]; rfl, by decide⟩
  | ioerr => exact ⟨.ioerr, hrun .ioerr fun c => by rw [writePath, hr]; rfl, by decide⟩

/-- What a failed write of an assembled frame leaves. -/
theorem Assembled.raise_notIssued {c : Cmd} {s s' : State} (hs : Assembled c (begin s) s') (isRead : Bool) (f : CommFailure) :
    failed (raise isRead (.commWrite f) (notIssued s')) (statusOf (.commWrite f)) s.session ∧
    (raise isRead (.commWrite f) (notIssued s')).pendCmd = s.pendCmd ∧
    (raise isRead (.commWrite f) (notIssued s')).tIssue = s.tIssue ∧
    (raise isRead (.commWrite f) (notIssued s')).tWait = s.tWait ∧
    (raise isRead (.commWrite f) (notIssued s')).env.trace =
      s.env.trace ++ [⟨s.env.now, .write, .write s.cfg.addr s'.txbuf (nextWrite s').result⟩] := by
  obtain ⟨henv, hcfg, hse, htxn, hp, hi, hw⟩ := hs.keeps
  obtain ⟨-, hissue, -, -, he, -⟩ := traffic_fields (raise_traffic isRead (.commWrite f) (notIssued s'))
  have hfail := raise_failed isRead (.commWrite f) (notIssued s')
  have hif : (isRead && (Error.commWrite f).stageCode == 2) = false := by cases isRead <;> rfl
  rw [hif] at hfail
  have hsess : ({ (notIssued s').session with phase := (notIssued s').phase } : Session) = s.session := hse
  refine ⟨hsess ▸ hfail, hissue.1.trans hp, hissue.2.1.trans hi, hissue.2.2.trans hw, ?_⟩
  have htr : (raise isRead (.commWrite f) (notIssued s')).env.trace = (busWrite s'.txbuf s').env.trace := congrArg Env.trace he
  rw [htr, busWrite_env, henv, hcfg, htxn]

/-- R102: whichever mode an instruction writes in, a write that is not acknowledged is its last call, and raises. -/
theorem exec_unacknowledged {i : Instr} {c : Cmd} {s : State} (hi : i.issues = some c)
    (hv : i.operandsValid) (hm : mayIssue c s)
    (hn : (s.cfg.catalog.entry c).nArg.val = i.argCount) (hw : (nextWrite s).result ≠ .ack) :
    ∃ s' isRead f, Assembled c (begin s) s' ∧ exec i s = .next (raise isRead (.commWrite f) (notIssued s')) ∧
      statusOf (.commWrite f) = if (nextWrite s).result = .nack then 0x0412 else 0x0422 := by
  have hnext {s' : State} (hs : Assembled c (begin s) s') : nextWrite s' = nextWrite s := nextWrite_congr hs.keeps.1
  have hphase {k : Kind} (hk : k.cmd = c) : s.phase = 2 := by
    subst hk
    cases k <;> exact hm.1
  by_cases hmeasure : ∃ k : Kind, i = k.measureRequest
  · obtain ⟨k, rfl⟩ := hmeasure
    obtain rfl : k.cmd = c := Option.some.inj ((issues_measureRequest k).symm.trans hi)
    obtain ⟨s', hs, -, hx⟩ := exec_start (hphase rfl) (hn.trans (by cases k <;> rfl))
    obtain ⟨f, hrun, hst⟩ := run_unacknowledged ((hnext hs).symm ▸ hw)
    rw [(hrun _).2, Run.close] at hx
    exact ⟨s', false, f, hs, hx, hnext hs ▸ hst⟩
  by_cases hblock : ∃ k : Kind, i = k.blockingRequest
  · obtain ⟨k, rfl⟩ := hblock
    obtain rfl : k.cmd = c := Option.some.inj ((issues_blockingRequest k).symm.trans hi)
    obtain ⟨s', hs, -, hx⟩ := exec_blocking (hphase rfl) (hn.trans (by cases k <;> rfl))
    obtain ⟨f, hrun, hst⟩ := run_unacknowledged ((hnext hs).symm ▸ hw)
    have hb : runBlocking k s' = .err (.commWrite f) (notIssued s') := by rw [runBlocking, (hrun _).2]; rfl
    rw [hb, settle_err] at hx
    exact ⟨s', true, f, hs, hx, hnext hs ▸ hst⟩
  · have hfull (k : Kind) : i ≠ k.measureRequest ∧ i ≠ k.blockingRequest :=
      ⟨fun h => hmeasure ⟨k, h⟩, fun h => hblock ⟨k, h⟩⟩
    obtain ⟨s', hs, -, hx⟩ := exec_full hi hfull hv hm hn
    obtain ⟨f, hrun, hst⟩ := run_unacknowledged ((hnext hs).symm ▸ hw)
    rw [(hrun _).1, settle_err] at hx
    exact ⟨s', false, f, hs, hx, hnext hs ▸ hst⟩

/-- Settles O21: the instruction raises the error of its write, and a failed write leaves the session. -/
theorem failedWriteIsReported : Obligations.FailedWriteIsReported := by
  unfold Obligations.FailedWriteIsReported
  intro i c s r hi hv hm hn hw hr
  have hanswer : (nextWrite s).result = r := hw
  obtain ⟨s', isRead, f, hs, hx, hst⟩ := exec_unacknowledged hi hv hm hn (hanswer ▸ hr)
  obtain ⟨hf, hkept⟩ := hs.raise_notIssued isRead f
  rw [nextWrite_congr hs.keeps.1] at hkept
  exact ⟨_, s'.txbuf, hx, hanswer ▸ hst ▸ hf, hanswer ▸ hkept⟩

/-! ### A read that fails -/

theorem readAnswers_congr {s t : State} {r : ReadResult} (h : t.env.reads = s.env.reads) :
    readAnswers t r ↔ readAnswers s r := by
  unfold readAnswers
  rw [h]

/-- The wait leaves the answer to the read. -/
theorem readAnswers_waitPath {s : State} {r : ReadResult} : readAnswers (waitPath s) r ↔ readAnswers s r := by
  obtain ⟨-, -, hr, -⟩ := waitPath_env s
  exact readAnswers_congr hr

/-- So do the assembly and the write of a frame. -/
theorem Assembled.readAnswers_issued {c : Cmd} {s s' : State} (hs : Assembled c (begin s) s') {r : ReadResult} :
    readAnswers (issued c s') r ↔ readAnswers s r := by
  obtain ⟨henv, -⟩ := hs.keeps
  refine readAnswers_congr ?_
  rw [← henv]
  rfl

/-- The read after the wait fails: its error is raised, and the session is kept. -/
theorem readPath_fails_waited {c : Cmd} {s : State} {r : ReadResult} (hn : (s.cfg.catalog.entry c).nResp.val ≠ 0)
    (hr : readAnswers s r) (hbad : readStatus (s.cfg.catalog.entry c).nResp.val r ≠ 0) :
    ∃ e u, readPath c (waitPath s) = .err e u ∧ statusOf e = readStatus (s.cfg.catalog.entry c).nResp.val r ∧
      e.stageCode = 2 ∧ u.session = s.session := by
  have hcfg : (waitPath s).cfg = s.cfg := by rw [waitPath_eq]
  obtain ⟨e, u, hp, hst⟩ := readPath_fails (c := c) (s := waitPath s) (by rw [hcfg]; exact hn) (readAnswers_waitPath.2 hr)
    (by rw [hcfg]; exact hbad)
  obtain ⟨hstage, hse, -⟩ := readPath_err_keeps hp
  exact ⟨e, u, hp, by rw [hst, hcfg], hstage, hse.trans (waitPath_keeps s).1⟩

/-- Settles O22: the read after the wait fails, and its error is raised. -/
theorem failedReadIsReported : Obligations.FailedReadIsReported := by
  unfold Obligations.FailedReadIsReported
  intro i c m s r hi hk hv hm hc hm0 hw hr hbad
  obtain ⟨s', hs, -, hx⟩ := exec_full hi hk hv hm hc.1
  obtain ⟨henv, hcfg, hse, -⟩ := hs.keeps
  have hack : (nextWrite s').result = .ack := (congrArg WriteAnswer.result (nextWrite_congr henv)).trans hw
  have hn : ((issued c s').cfg.catalog.entry c).nResp.val = m :=
    (congrArg (fun p => (p.catalog.entry c).nResp.val) hcfg).trans hc.2
  obtain ⟨e, u, hp, hst, hstage, hu⟩ := readPath_fails_waited (c := c) (s := issued c s') (by rw [hn]; exact hm0)
    (hs.readAnswers_issued.2 hr) (by rw [hn]; exact hbad)
  have hrun : runFull c s' = .err e u := by simp [runFull, writePath_ack hack, Run.andThen, hp]
  rw [hrun, settle_err] at hx
  refine ⟨_, hx, ?_, ?_⟩
  · have hf := raise_failed false e u
    rw [hst, hn] at hf
    have hsess : ({ u.session with phase := u.phase } : Session) = s.session := hu.trans hse
    exact hsess ▸ hf
  · have hpart := readPath_readPart c (waitPath (issued c s'))
    rw [hp] at hpart
    have htr := hpart.keeps
    rw [waitPath_traffic] at htr
    obtain ⟨-, hissue, -⟩ := traffic_fields ((raise_traffic false e u).trans htr)
    exact hs.recorded hissue

/-- R144, R156: a split read whose response fails. -/
theorem exec_read_fails {k : Kind} {s : State} {r : ReadResult} (hp : s.phase = 3) (hk : s.kind = k)
    (hw : waitElapsed s = true) (hn : (s.cfg.catalog.entry k.cmd).nResp.val ≠ 0) (hr : readAnswers s r)
    (hbad : readStatus (s.cfg.catalog.entry k.cmd).nResp.val r ≠ 0) :
    ∃ t, exec k.readRequest s = .next t ∧
      failed t (readStatus (s.cfg.catalog.entry k.cmd).nResp.val r) { s.session with phase := 2 } := by
  obtain ⟨e, u, hread, hst⟩ := readPath_fails (s := begin s) hn hr hbad
  obtain ⟨hstage, hse, -⟩ := readPath_err_keeps hread
  have hrun : runReadOnly k.cmd (begin s) = .err e u := by simp [runReadOnly, hread, Run.andThen]
  have hx := exec_read hp hk hw
  rw [hrun, settle_err] at hx
  have hf := raise_read_failed hstage u
  rw [hst, hse] at hf
  exact ⟨_, hx, hf⟩

/-- R145, R156: a blocking read whose response fails; its kind is taken back (log 15). -/
theorem exec_blocking_fails {k : Kind} {s : State} {r : ReadResult} (hp : s.phase = 2)
    (ha : (s.cfg.catalog.entry k.cmd).nArg.val = 0) (hw : writeAnswers s .ack)
    (hn : (s.cfg.catalog.entry k.cmd).nResp.val ≠ 0) (hr : readAnswers s r)
    (hbad : readStatus (s.cfg.catalog.entry k.cmd).nResp.val r ≠ 0) :
    ∃ t, exec k.blockingRequest s = .next t ∧
      failed t (readStatus (s.cfg.catalog.entry k.cmd).nResp.val r) { s.session with phase := 2 } := by
  obtain ⟨s', hs, -, hx⟩ := exec_blocking hp ha
  obtain ⟨henv, hcfg, hse, -⟩ := hs.keeps
  have hack : (nextWrite s').result = .ack := (congrArg WriteAnswer.result (nextWrite_congr henv)).trans hw
  have hcat : (issuedInFlight k s').cfg = s.cfg := hcfg
  obtain ⟨e, u, hread, hst, hstage, hu⟩ := readPath_fails_waited (c := k.cmd) (s := issuedInFlight k s')
    (by rw [hcat]; exact hn) ((readAnswers_congr rfl).trans hs.readAnswers_issued |>.2 hr) (by rw [hcat]; exact hbad)
  have hrun : runBlocking k s' = .err e (u.setKind s'.kind) := by
    rcases runBlocking_cases k s' with ⟨f, hnack, -⟩ | ⟨-, ⟨e', u', hr', hb⟩ | ⟨u', hr', -⟩⟩
    · exact absurd hack hnack
    · cases hread.symm.trans hr'
      exact hb
    · cases hread.symm.trans hr'
  rw [hrun, settle_err] at hx
  have hf := raise_read_failed hstage (u.setKind s'.kind)
  have hsess : ({ (u.setKind s'.kind).session with phase := 2 } : Session) = { s.session with phase := 2 } :=
    calc
      { (u.setKind s'.kind).session with phase := 2 } = { u.session with phase := 2, kind := s'.kind } := rfl
      _ = { s'.session with phase := 2 } := by rw [hu]; rfl
      _ = { s.session with phase := 2 } := by rw [hse]
  rw [hst, hsess, hcat] at hf
  exact ⟨_, hx, hf⟩

/-- Settles O23: the read is that of the split read, or the one after the wait of the blocking read. -/
theorem failedMeasurementReadEndsIt : Obligations.FailedMeasurementReadEndsIt := by
  unfold Obligations.FailedMeasurementReadEndsIt
  rintro k m s r ha rfl hm hr hbad
  exact ⟨fun hp hk hw => exec_read_fails hp hk hw hm hr hbad, fun hp hw => exec_blocking_fails hp ha hw hm hr hbad⟩

end Sys2Proof.Machine
end

section
/-! PROOF. What each instruction in mode `FULL` answers where its exchange is good (O27 to O36, O38): its words, its session,
the issue, and its calls. `exec_answered` runs the exchange; its last rule lines are said once, for all of them. -/

namespace Sys2Proof.Machine

/-! ### The result words -/

/-- The end of a wire command keeps the session, and leaves the words of the response in wire order (R106). -/
theorem retWire_completed (s : State) :
    completed (retWire s) ([s.word0, s.word1, s.word2].take s.wcount.toNat) s.session :=
  ⟨hostResponse_of_legal legalStatus_zero, rfl, rfl⟩

/-- So an instruction in mode `FULL` is completed by its last rule lines. -/
theorem postOf_completed {i : Instr} {c : Cmd} (hi : i.issues = some c)
    (hk : ∀ k : Kind, i ≠ k.measureRequest ∧ i ≠ k.blockingRequest) (s : State) :
    completed (postOf i s) (resultOf i s) (sessionAfter i s.session s.word0 s.word1) := by
  rw [← postOf_session]
  rcases postOf_returns hi hk s with ⟨u, hu⟩ | ⟨hu, hr⟩
  · rw [hu, ret_session]
    exact completed_ret (resultOf_length i s) u
  · rw [hu, hr]
    exact retWire_completed s

/-! ### The exchange -/

/-- An instruction in mode `FULL` that is admitted, acknowledged and answered with `ws` answers a next state: its result words
and its session, made of the words in wire order that stand in a state `u`; its issue; and its exchange. -/
theorem exec_completes {i : Instr} {c : Cmd} {s : State} {ws : List Word} (hi : i.issues = some c)
    (hk : ∀ k : Kind, i ≠ k.measureRequest ∧ i ≠ k.blockingRequest) (hv : i.operandsValid) (hm : mayIssue c s)
    (hc : countsAre s c i.argCount ws.length) (hw : writeAnswers s .ack)
    (hr : ws ≠ [] → readAnswers s (.bytes (triples ws))) (hn : needOf i ≤ ws.length) :
    ∃ t u, exec i s = .next t ∧ completed t (resultOf i u) (sessionAfter i s.session u.word0 u.word1) ∧
      [u.word0, u.word1, u.word2].take ws.length = ws ∧ u.wcount.toNat = ws.length ∧ issueRecorded s t c ∧
      exchange s t (frameOf (s.cfg.catalog.entry c).opcode (argsOf i s)) (triples ws) := by
  obtain ⟨u, hx, hse, hwc, hws, hissue, hex⟩ := exec_answered hi hk hv hm hc hw hr hn
  obtain ⟨-, ⟨hp, hti, htw⟩, -, -, he, -⟩ := traffic_fields (postOf_traffic i u)
  have he : (postOf i u).env = u.env := he
  refine ⟨postOf i u, u, hx, hse ▸ postOf_completed hi hk u, hws, hwc, ?_, ?_⟩
  · exact ⟨hp.trans hissue.1, hti.trans hissue.2.1, htw.trans hissue.2.2⟩
  · unfold exchange
    rw [he]
    exact hex

/-- A command that is no measurement is issued by none of the measurement requests. -/
theorem noMeasure_of_cmd {i : Instr} {c : Cmd} (hi : i.issues = some c) (hc : c ≠ .measureIaq ∧ c ≠ .measureRaw) :
    ∀ k : Kind, i ≠ k.measureRequest ∧ i ≠ k.blockingRequest := by
  have hk : ∀ k : Kind, some k.cmd ≠ some c := fun k h => by
    cases k <;> first | exact hc.1 (Option.some.inj h).symm | exact hc.2 (Option.some.inj h).symm
  refine fun k => ⟨fun h => hk k ?_, fun h => hk k ?_⟩
  · rw [← hi, h, issues_measureRequest]
  · rw [← hi, h, issues_blockingRequest]

/-! The words of a response, one by one. -/

theorem take_one {w : Word} {u : State} (h : [u.word0, u.word1, u.word2].take 1 = [w]) : u.word0 = w := by simpa using h

theorem take_two {w0 w1 : Word} {u : State} (h : [u.word0, u.word1, u.word2].take 2 = [w0, w1]) :
    u.word0 = w0 ∧ u.word1 = w1 := by simpa using h

theorem take_three {w0 w1 w2 : Word} {u : State} (h : [u.word0, u.word1, u.word2].take 3 = [w0, w1, w2]) :
    u.word0 = w0 ∧ u.word1 = w1 ∧ u.word2 = w2 := by simpa using h

/-! ### Requests without operands -/

/-- Settles O28: the word of the response is cached. -/
theorem probeReachesProbed : Obligations.ProbeReachesProbed := by
  unfold Obligations.ProbeReachesProbed
  intro s w hm hc hw hr
  obtain ⟨t, u, hx, hdone, hws, -, hissue, hex⟩ := exec_completes (i := .probe) (ws := [w]) rfl
    (noMeasure_of_cmd rfl (by decide)) trivial hm hc hw (fun _ => hr) (Nat.le_refl 1)
  rw [take_one hws] at hdone
  exact ⟨t, hx, hdone, hissue, hex⟩

/-- Settles O29: the three words are the whole response. -/
theorem serialIdIsThreeWords : Obligations.SerialIdIsThreeWords := by
  unfold Obligations.SerialIdIsThreeWords
  intro s w0 w1 w2 hm hc hw hr
  obtain ⟨t, u, hx, hdone, hws, -, hissue, hex⟩ := exec_completes (i := .getSerialId) (ws := [w0, w1, w2]) rfl
    (noMeasure_of_cmd rfl (by decide)) trivial hm hc hw (fun _ => hr) (Nat.le_refl 3)
  obtain ⟨h0, h1, h2⟩ := take_three hws
  rw [resultOf, h0, h1, h2] at hdone
  exact ⟨t, hx, hdone, hissue, hex⟩

/-- Settles O30: the word of the response is cached and returned. -/
theorem featureSetVersionIsCached : Obligations.FeatureSetVersionIsCached := by
  unfold Obligations.FeatureSetVersionIsCached
  intro s w hm hc hw hr
  obtain ⟨t, u, hx, hdone, hws, -, hissue, hex⟩ := exec_completes (i := .getFeatureSetVersion) (ws := [w]) rfl
    (noMeasure_of_cmd rfl (by decide)) trivial hm hc hw (fun _ => hr) (Nat.le_refl 1)
  rw [resultOf, take_one hws] at hdone
  exact ⟨t, hx, hdone, hissue, hex⟩

/-- Settles O31: there is no response to read. -/
theorem iaqInitReachesInitialized : Obligations.IaqInitReachesInitialized := by
  unfold Obligations.IaqInitReachesInitialized
  intro s hm hc hw
  obtain ⟨t, u, hx, hdone, -, -, hissue, hex⟩ := exec_completes (i := .iaqInit) (ws := []) rfl
    (noMeasure_of_cmd rfl (by decide)) trivial hm hc hw (fun h => absurd rfl h) (Nat.le_refl 0)
  exact ⟨t, hx, hdone, hissue, hex⟩

/-- Settles O32: `BASE_REG` is the first word joined with the second. -/
theorem getIaqBaselineReturnsPair : Obligations.GetIaqBaselineReturnsPair := by
  unfold Obligations.GetIaqBaselineReturnsPair
  intro s co2eq tvoc hm hc hw hr
  obtain ⟨t, u, hx, hdone, hws, -, hissue, hex⟩ := exec_completes (i := .getIaqBaseline) (ws := [co2eq, tvoc]) rfl
    (noMeasure_of_cmd rfl (by decide)) trivial hm hc hw (fun _ => hr) (Nat.le_refl 2)
  obtain ⟨h0, h1⟩ := take_two hws
  rw [resultOf, h0, h1] at hdone
  exact ⟨t, hx, hdone, hissue, hex⟩

/-- Settles O34: the word is the whole response. -/
theorem tvocInceptiveBaselineIsReturned : Obligations.TvocInceptiveBaselineIsReturned := by
  unfold Obligations.TvocInceptiveBaselineIsReturned
  intro s w hm hc hw hr
  obtain ⟨t, u, hx, hdone, hws, -, hissue, hex⟩ := exec_completes (i := .getTvocInceptiveBaseline) (ws := [w]) rfl
    (noMeasure_of_cmd rfl (by decide)) trivial hm hc hw (fun _ => hr) (Nat.le_refl 1)
  rw [resultOf, take_one hws] at hdone
  exact ⟨t, hx, hdone, hissue, hex⟩

/-- Settles O38: `B` is the comparison of the word with the sentinel. -/
theorem selfTestComparesSentinel : Obligations.SelfTestComparesSentinel := by
  unfold Obligations.SelfTestComparesSentinel
  intro s w hm hc hw hr
  obtain ⟨t, u, hx, hdone, hws, -, hissue, hex⟩ := exec_completes (i := .measureTest) (ws := [w]) rfl
    (noMeasure_of_cmd rfl (by decide)) trivial hm hc hw (fun _ => hr) (Nat.le_refl 1)
  rw [resultOf, take_one hws] at hdone
  exact ⟨t, hx, hdone, hissue, hex⟩

/-! ### Requests with operands -/

/-- Settles O33: the frame holds the pair in the order of `P_SETBASE_ORDER`. -/
theorem setIaqBaselineWritesPair : Obligations.SetIaqBaselineWritesPair := by
  unfold Obligations.SetIaqBaselineWritesPair
  rintro s a0 tvoc co2eq ha rfl hm hc hw
  obtain ⟨t, u, hx, hdone, -, -, hissue, hex⟩ := exec_completes (i := .setIaqBaseline a0 tvoc) (ws := []) rfl
    (noMeasure_of_cmd rfl (by decide)) ha hm hc hw (fun h => absurd rfl h) (Nat.le_refl 0)
  refine ⟨t, hx, hdone, hissue, fun ho => ?_, fun ho => ?_⟩
  all_goals
    rw [argsOf, baselineArgs, ho] at hex
    exact hex

/-- Settles O35: the argument word is the operand, and there is no response to read. -/
theorem setTvocBaselineWritesValue : Obligations.SetTvocBaselineWritesValue := by
  unfold Obligations.SetTvocBaselineWritesValue
  intro s a0 ha hm hc hw
  obtain ⟨t, u, hx, hdone, -, -, hissue, hex⟩ := exec_completes (i := .setTvocBaseline a0) (ws := []) rfl
    (noMeasure_of_cmd rfl (by decide)) ha hm hc hw (fun h => absurd rfl h) (Nat.le_refl 0)
  exact ⟨t, hx, hdone, hissue, hex⟩

/-- R129: a valid humidity operand is the number its bits stand for. -/
theorem humidityValue_toNat {a0 : BitVec 32} (h : 0 ≤ a0.toInt) : (humidityValue a0).toNat = a0.toNat := by
  rw [humidityValue, BitVec.toInt_eq_toNat_of_msb, Int.toNat_natCast]
  refine Bool.eq_false_iff.2 fun hm => Int.not_lt.2 h (BitVec.toInt_neg_iff.2 ?_)
  rw [BitVec.msb_eq_decide, decide_eq_true_iff] at hm
  omega

theorem humidityWord_zero (p : Params) : humidityWord p 0 = 0 := if_pos rfl

/-- R130: an operand that is not 0 is scaled. -/
theorem humidityWord_scaled (p : Params) {a0 : BitVec 32} (h : 0 ≤ a0.toInt) (hne : a0 ≠ 0) :
    humidityWord p a0 = p.humScale.apply a0.toNat := by
  have hz : humidityValue a0 ≠ 0 := fun hz => hne (BitVec.eq_of_toInt_eq hz)
  rw [humidityWord, if_neg hz, humidityValue_toNat h]

/-- Settles O36: the argument word is `humidityWord`, and there is no response to read. -/
theorem humidityWritesCompensation : Obligations.HumidityWritesCompensation := by
  unfold Obligations.HumidityWritesCompensation
  intro s a0 h0 h1 hm hc hw
  obtain ⟨t, u, hx, hdone, -, -, hissue, hex⟩ := exec_completes (i := .setAbsoluteHumidity a0) (ws := []) rfl
    (noMeasure_of_cmd rfl (by decide)) ⟨h0, h1⟩ hm hc hw (fun h => absurd rfl h) (Nat.le_refl 0)
  exact ⟨t, humidityWord s.cfg a0, hx, fun hz => hz ▸ humidityWord_zero s.cfg, humidityWord_scaled s.cfg h0, hdone,
    hissue, hex⟩

/-! ### The default humidity scale -/

/-- R130: the default scale has no special values, so it is its formula. -/
theorem default_humScale_apply (v : Nat) :
    Params.default.humScale.apply v = BitVec.ofNat 16 (v * 4294912 / 2 ^ 24) := by
  simp [HumScale.apply, Params.default, Nat.shiftRight_eq_div_pow]

theorem humidityWord_default {v : Nat} (h : v ≤ 256000) :
    (humidityWord Params.default (BitVec.ofNat 32 v)).toNat = v * 4294912 / 2 ^ 24 := by
  have hv : (BitVec.ofNat 32 v).toNat = v := by rw [BitVec.toNat_ofNat, Nat.mod_eq_of_lt (by omega)]
  have h0 : 0 ≤ (BitVec.ofNat 32 v).toInt := by
    rw [BitVec.toInt_eq_toNat_of_lt (by omega)]
    exact Int.natCast_nonneg _
  by_cases hz : BitVec.ofNat 32 v = 0
  · have hv0 : v = 0 := by rw [← hv, hz]; rfl
    subst hv0
    rfl
  · rw [humidityWord_scaled _ h0 hz, hv, default_humScale_apply, BitVec.toNat_ofNat, Nat.mod_eq_of_lt (by omega)]

/-- Settles O37: a step of the operand moves the formula by less than 1, so it meets every word. -/
theorem humidityScaleIsOnto : Obligations.HumidityScaleIsOnto := by
  unfold Obligations.HumidityScaleIsOnto
  refine ⟨fun v hv => ?_, fun h => ?_, fun v hv => ?_, by decide, by decide⟩
  · rw [humidityWord_default hv]
    omega
  · have hlt := h.isLt
    have hle : (h.toNat * 2 ^ 24 + 4294911) / 4294912 ≤ 256000 := by omega
    exact ⟨_, hle, BitVec.eq_of_toNat_eq (by rw [humidityWord_default hle]; omega)⟩
  · refine BitVec.eq_of_toNat_eq ?_
    rw [humidityWord_default (by omega), show (0x0000 : Word).toNat = 0 from rfl]
    omega

/-! ### Wire commands -/

/-- An instruction with a frame is the wire command of its catalog command. -/
theorem exists_command_of_wire {i : Instr} {c : Cmd} {args : List Word} (h : i.wire = some (c, args)) :
    ∃ arg0 arg1, i = c.command arg0 arg1 ∧ args = argWords arg0 arg1 := by
  rcases command_or_request i with ⟨c', arg0, arg1, rfl⟩ | ⟨hn, -⟩
  · rw [wire_command] at h
    cases h
    exact ⟨arg0, arg1, rfl, rfl⟩
  · rw [hn] at h
    cases h

/-- R80 to R90: what the shared shape of mode `FULL` makes of a wire command. -/
theorem command_facts (c : Cmd) (arg0 arg1 : Option Word) :
    (c.command arg0 arg1).issues = some c ∧ (c.command arg0 arg1).operandsValid ∧
    (c.command arg0 arg1).argCount = (argWords arg0 arg1).length ∧ needOf (c.command arg0 arg1) = 0 ∧
    (∀ k : Kind, c.command arg0 arg1 ≠ k.measureRequest ∧ c.command arg0 arg1 ≠ k.blockingRequest) ∧
    (∀ s, argsOf (c.command arg0 arg1) s = argWords arg0 arg1) ∧
    (∀ x w0 w1, sessionAfter (c.command arg0 arg1) x w0 w1 = x) ∧
    (∀ u, resultOf (c.command arg0 arg1) u = [u.word0, u.word1, u.word2].take u.wcount.toNat) := by
  have hk : ∀ k : Kind, c.command arg0 arg1 ≠ k.measureRequest ∧ c.command arg0 arg1 ≠ k.blockingRequest := by
    refine fun k => ⟨fun h => ?_, fun h => ?_⟩
    all_goals
      have hw := congrArg Instr.wire h
      rw [wire_command] at hw
      cases k <;> cases hw
  cases c <;> exact ⟨rfl, trivial, rfl, rfl, hk, fun _ => rfl, fun _ _ _ => rfl, fun _ => rfl⟩

/-- Settles O27: the bytes are a frame of a catalog command, and the words of a wire command pass unchanged. -/
theorem wireCommandsRunTheirExchange : Obligations.WireCommandsRunTheirExchange := by
  unfold Obligations.WireCommandsRunTheirExchange
  intro i c args ws s hwire hm hc hw hr
  obtain ⟨arg0, arg1, rfl, rfl⟩ := exists_command_of_wire hwire
  obtain ⟨hi, hv, hcount, hneed, hk, hargs, hsess, hres⟩ := command_facts c arg0 arg1
  obtain ⟨t, u, hx, hdone, hws, hwc, hissue, hex⟩ := exec_completes hi hk hv hm (hcount.symm ▸ hc) hw hr (by omega)
  rw [hres, hwc, hws, hsess] at hdone
  rw [hargs] at hex
  exact ⟨t, hx, hdone, hissue, hex⟩

end Sys2Proof.Machine
end

section
/-! PROOF. The measurement requests (O39, O40, O41, O42): a split measure, a split read and a blocking read, each with a good
answer and, for R157, with any. -/

namespace Sys2Proof.Machine

/-! ### The parts of a measurement -/

/-- R141: the decoded result, from the two words of the response. -/
theorem decodeResult_eq {k : Kind} {s : State} {w0 w1 : Word} (h0 : s.word0 = w0) (h1 : s.word1 = w1) :
    decodeResult k s = k.decoded s.cfg w0 w1 := by
  subst h0 h1
  unfold Kind.decoded
  cases k
  case raw => cases hr : s.cfg.rawEthanolAt <;> simp [decodeResult, wordAt, wordBeside, hr]
  all_goals cases hi : s.cfg.iaqTvocAt <;> simp [decodeResult, wordAt, wordBeside, hi]

/-- A request closes with the registers of the engine that its run left. -/
theorem close_traffic {r : Run} {isRead : Bool} {k : State → State} (hk : ∀ s, (k s).traffic = s.traffic) :
    (r.close isRead k).traffic = r.final.traffic := by
  cases r with
  | ok s => exact hk s
  | err e s => exact raise_traffic isRead e s

theorem runReadOnly_traffic (c : Cmd) (s : State) : (runReadOnly c s).final.traffic = (readPath c s).final.traffic := by
  rcases runReadOnly_cases c s with ⟨e, u, hp, hr⟩ | ⟨u, hp, hr⟩
  · rw [hp, hr]
  · rw [hp, hr]
    rfl

theorem runBlocking_traffic {k : Kind} {s : State} (h : (nextWrite s).result = .ack) :
    (runBlocking k s).final.traffic = (readPath k.cmd (waitPath (issuedInFlight k s))).final.traffic := by
  rcases runBlocking_cases k s with ⟨f, hn, -⟩ | ⟨-, ⟨e, u, hp, hr⟩ | ⟨u, hp, hr⟩⟩
  · exact absurd h hn
  all_goals
    rw [hp, hr]
    rfl

/-- A read of two words asks for six bytes, whatever it is answered. -/
theorem readPath_env {c : Cmd} {s : State} (hn : (s.cfg.catalog.entry c).nResp.val = 2) :
    (readPath c s).final.env.host = s.env.host ∧ (readPath c s).final.env.trace =
      s.env.trace ++ [⟨s.env.now, .read, .read s.cfg.addr 6 (nextRead s).result⟩] := by
  obtain ⟨-, -, -, -, he, -⟩ := traffic_fields (receive_traffic 2 (s.setTxn .read))
  rw [readPath_def, hn, if_neg (by decide), he]
  exact ⟨rfl, rfl⟩

/-! ### The split measure -/

/-- R143: what a split measure leaves. -/
structure Started (k : Kind) (s t : State) : Prop where
  done : completed t [] { s.session with phase := 3, kind := k }
  issue : issueRecorded s t k.cmd
  host : t.env.host = s.env.host
  reads : t.env.reads = s.env.reads
  trace : t.env.trace = s.env.trace ++
    [⟨s.env.now, .write, .write s.cfg.addr (frameOf (s.cfg.catalog.entry k.cmd).opcode []) .ack⟩]

theorem exec_measure {k : Kind} {s : State} (hp : s.phase = 2) (ha : (s.cfg.catalog.entry k.cmd).nArg.val = 0)
    (hw : writeAnswers s .ack) : ∃ t, exec k.measureRequest s = .next t ∧ Started k s t := by
  obtain ⟨s', hs, hb, hx⟩ := exec_start hp ha
  obtain ⟨henv, hcfg, hse, htxn, -⟩ := hs.keeps
  have hack : (nextWrite s').result = .ack := (congrArg WriteAnswer.result (nextWrite_congr henv)).trans hw
  have hrun : runWriteOnly k.cmd s' = .ok ((issued k.cmd s').setTxn .idle) := by
    simp [runWriteOnly, writePath_ack hack, Run.andThen]
  rw [hrun, Run.close] at hx
  obtain ⟨-, hissue, -, -, he, -⟩ := traffic_fields (ret_traffic [] (inFlight k ((issued k.cmd s').setTxn .idle)))
  have he : _ = (busWrite s'.txbuf s').env := he
  refine ⟨_, hx, ?_, hs.recorded hissue, by rw [he, ← henv]; rfl, by rw [he, ← henv]; rfl, ?_⟩
  · rw [← hse]
    exact completed_ret (by simp) _
  · rw [he, busWrite_env, henv, hcfg, htxn, hb, hack]

/-- Settles O39: the write is acknowledged, and no other call is made. -/
theorem splitMeasureStarts : Obligations.SplitMeasureStarts := by
  unfold Obligations.SplitMeasureStarts
  intro k s hp ha hw
  obtain ⟨t, hx, ht⟩ := exec_measure hp ha hw
  exact ⟨t, hx, ht.done, ht.issue, ht.host, ht.trace⟩

/-! ### The split read -/

/-- A split read of the kind in flight, its wait over, ends as its run closes. -/
theorem exec_read_next {k : Kind} {s : State} (hp : s.phase = 3) (hk : s.kind = k) (hw : waitElapsed s = true)
    (hn : (s.cfg.catalog.entry k.cmd).nResp.val = 2) :
    exec k.readRequest s = .next ((runReadOnly k.cmd (begin s)).close true (readDone k)) :=
  (exec_read hp hk hw).trans (settle_enough (Nat.le_of_eq hn.symm))

/-- R144: a split read makes the one read of its response. -/
theorem exec_read_calls {k : Kind} {s t : State} (hp : s.phase = 3) (hk : s.kind = k) (hw : waitElapsed s = true)
    (hn : (s.cfg.catalog.entry k.cmd).nResp.val = 2) (h : exec k.readRequest s = .next t) :
    t.env.host = s.env.host ∧
      t.env.trace = s.env.trace ++ [⟨s.env.now, .read, .read s.cfg.addr 6 (nextRead s).result⟩] := by
  have ht : t = _ := Host.Outcome.next.inj (h.symm.trans (exec_read_next hp hk hw hn))
  have htr : t.traffic = _ := ht ▸ (close_traffic (readDone_traffic k)).trans (runReadOnly_traffic k.cmd (begin s))
  obtain ⟨-, -, -, -, he, -⟩ := traffic_fields htr
  have he : t.env = (readPath k.cmd (begin s)).final.env := he
  rw [he]
  exact readPath_env (s := begin s) hn

/-- R144, R158: a split read that is answered with two good words. -/
theorem exec_read_completes {k : Kind} {s : State} {w0 w1 : Word} (hp : s.phase = 3) (hk : s.kind = k)
    (hw : waitElapsed s = true) (hn : (s.cfg.catalog.entry k.cmd).nResp.val = 2)
    (hr : readAnswers s (.bytes (triples [w0, w1]))) :
    ∃ t, exec k.readRequest s = .next t ∧ completed t (k.decoded s.cfg w0 w1) { s.session with phase := 2 } ∧
      t.pendCmd = s.pendCmd ∧ t.tIssue = s.tIssue ∧ t.tWait = s.tWait := by
  obtain ⟨u, hread, hse, h1, h2, h3, -, -, hws, -⟩ :=
    readPath_triples (c := k.cmd) (s := begin s) (ws := [w0, w1]) hn fun _ => hr
  obtain ⟨hw0, hw1⟩ := take_two hws
  have hcfg : u.cfg = s.cfg := congrArg Session.cfg hse
  have hrun : runReadOnly k.cmd (begin s) = .ok (u.setTxn .idle) := by simp [runReadOnly, hread, Run.andThen]
  have hx := exec_read_next hp hk hw hn
  rw [hrun, Run.close] at hx
  obtain ⟨-, ⟨g1, g2, g3⟩, -⟩ := traffic_fields (readDone_traffic k (u.setTxn .idle))
  refine ⟨_, hx, ?_, g1.trans h1, g2.trans h2, g3.trans h3⟩
  have hdone := readDone_completed k (u.setTxn .idle)
  rw [decodeResult_eq (s := u.setTxn .idle) hw0 hw1, State.setTxn_cfg, hcfg] at hdone
  have hsess : (u.setTxn .idle).session = s.session := hse
  rwa [hsess] at hdone

/-- Settles O40: what it returns, and what it does at the ports. -/
theorem splitReadReturnsDecoded : Obligations.SplitReadReturnsDecoded := by
  unfold Obligations.SplitReadReturnsDecoded
  intro k s w0 w1 hp hk hw hn hr
  have hwe : waitElapsed s = true := (waitElapsed_iff s).2 hw
  obtain ⟨t, hx, hdone, h1, h2, h3⟩ := exec_read_completes hp hk hwe hn hr
  obtain ⟨hhost, htr⟩ := exec_read_calls hp hk hwe hn hx
  exact ⟨t, hx, hdone, h1, h2, h3, hhost, by rw [htr, nextRead_of_readAnswers hr]⟩

/-! ### The blocking read -/

/-- R145: what a blocking read does at the ports, and what is recorded of its issue, whatever it is answered. -/
theorem exec_blocking_calls {k : Kind} {s t : State} {r : ReadResult} (hp : s.phase = 2) (hc : countsAre s k.cmd 0 2)
    (hw : writeAnswers s .ack) (hr : readAnswers s r) (h : exec k.blockingRequest s = .next t) :
    issueRecorded s t k.cmd ∧ t.env.host = s.env.host ∧ ∃ slept readAt,
      (∀ e ∈ slept, e.isSleep = true ∧ e.txn = .wait) ∧ slept ≠ [] ∧
      t.env.trace =
        s.env.trace ++ [⟨s.env.now, .write, .write s.cfg.addr (frameOf (s.cfg.catalog.entry k.cmd).opcode []) .ack⟩] ++
          slept ++ [⟨readAt, .read, .read s.cfg.addr 6 r⟩] := by
  obtain ⟨s', hs, hb, hx⟩ := exec_blocking hp hc.1
  obtain ⟨henv, hcfg, -, htxn, -⟩ := hs.keeps
  have hack : (nextWrite s').result = .ack := (congrArg WriteAnswer.result (nextWrite_congr henv)).trans hw
  have ht : t = (runBlocking k s').close true (readDone k) := settle_next (hx.symm.trans h)
  have htr : t.traffic = (readPath k.cmd (waitPath (issuedInFlight k s'))).final.traffic :=
    ht ▸ (close_traffic (readDone_traffic k)).trans (runBlocking_traffic hack)
  have hwcfg : (waitPath (issuedInFlight k s')).cfg = s.cfg := by rw [waitPath_eq]; exact hcfg
  obtain ⟨whost, -, -, -, -⟩ := waitPath_env (issuedInFlight k s')
  obtain ⟨slept, wtr, wne, wsl⟩ := waitPath_sleeps (issuedInFlight k s')
  obtain ⟨hhost, htrace⟩ := readPath_env (c := k.cmd) (s := waitPath (issuedInFlight k s')) (by rw [hwcfg]; exact hc.2)
  have hrr : (nextRead (waitPath (issuedInFlight k s'))).result = r :=
    nextRead_of_readAnswers (readAnswers_waitPath.2 ((readAnswers_congr rfl).trans hs.readAnswers_issued |>.2 hr))
  have hkeep := (readPath_readPart k.cmd (waitPath (issuedInFlight k s'))).keeps
  rw [waitPath_traffic] at hkeep
  obtain ⟨-, hissue, -⟩ := traffic_fields (htr.trans hkeep)
  obtain ⟨-, -, -, -, he, -⟩ := traffic_fields htr
  have he : t.env = (readPath k.cmd (waitPath (issuedInFlight k s'))).final.env := he
  have hwenv : (issuedInFlight k s').env = (busWrite s'.txbuf s').env := rfl
  refine ⟨hs.recorded hissue, ?_, slept, (waitPath (issuedInFlight k s')).env.now, wsl, wne, ?_⟩
  · rw [he, hhost, whost, hwenv, ← henv]
    rfl
  · rw [he, htrace, wtr, hwenv, busWrite_env, henv, hcfg, htxn, hb, hack, hrr, hwcfg]

/-- R145, R158: a blocking read that is answered with two good words. -/
theorem exec_blocking_completes {k : Kind} {s : State} {w0 w1 : Word} (hp : s.phase = 2) (hc : countsAre s k.cmd 0 2)
    (hw : writeAnswers s .ack) (hr : readAnswers s (.bytes (triples [w0, w1]))) :
    ∃ t, exec k.blockingRequest s = .next t ∧ completed t (k.decoded s.cfg w0 w1) { s.session with kind := k } := by
  obtain ⟨s', hs, -, hx⟩ := exec_blocking hp hc.1
  obtain ⟨henv, hcfg, hse, -⟩ := hs.keeps
  have hack : (nextWrite s').result = .ack := (congrArg WriteAnswer.result (nextWrite_congr henv)).trans hw
  have hwcfg : (waitPath (issuedInFlight k s')).cfg = s.cfg := by rw [waitPath_eq]; exact hcfg
  obtain ⟨u, hread, hu, -, -, -, -, -, hws, -⟩ := readPath_triples (c := k.cmd) (s := waitPath (issuedInFlight k s'))
    (ws := [w0, w1]) (by rw [hwcfg]; exact hc.2)
    fun _ => readAnswers_waitPath.2 ((readAnswers_congr rfl).trans hs.readAnswers_issued |>.2 hr)
  obtain ⟨hw0, hw1⟩ := take_two hws
  have hrun : runBlocking k s' = .ok (u.setTxn .idle) := by
    rcases runBlocking_cases k s' with ⟨f, hnack, -⟩ | ⟨-, ⟨e', u', hr', -⟩ | ⟨u', hr', hb⟩⟩
    · exact absurd hack hnack
    · cases hread.symm.trans hr'
    · cases hread.symm.trans hr'
      exact hb
  rw [hrun, settle_enough (Nat.le_of_eq (by rw [hcfg, hc.2]))] at hx
  refine ⟨_, hx, ?_⟩
  have hsess : u.session = { s.session with phase := 3, kind := k } := by
    rw [hu, (waitPath_keeps _).1, ← hse]
    rfl
  have hdone := readDone_completed k (u.setTxn .idle)
  have hcu : u.cfg = s.cfg := congrArg Session.cfg hsess
  have hend : ({ (u.setTxn .idle).session with phase := 2 } : Session) = { s.session with kind := k } :=
    calc
      { (u.setTxn .idle).session with phase := 2 } = { u.session with phase := 2 } := rfl
      _ = { s.session with phase := s.phase, kind := k } := by rw [hsess, hp]
  rwa [decodeResult_eq (s := u.setTxn .idle) hw0 hw1, State.setTxn_cfg, hcu, hend] at hdone

/-- Settles O41: what it returns, and what it does at the ports. -/
theorem blockingReadReturnsDecoded : Obligations.BlockingReadReturnsDecoded := by
  unfold Obligations.BlockingReadReturnsDecoded
  intro k s w0 w1 hp hc hw hr
  obtain ⟨t, hx, hdone⟩ := exec_blocking_completes hp hc hw hr
  obtain ⟨hissue, hhost, slept, readAt, hsl, hne, htr⟩ := exec_blocking_calls hp hc hw hr hx
  exact ⟨t, hx, hdone, hissue, hhost, slept, readAt, hsl, hne, htr⟩

/-! ### Both ways to measure -/

/-- An answer of status 0 is the triples of as many words as were asked for. -/
theorem triples_of_readStatus {m : Nat} {r : ReadResult} (h3 : m ≤ 3) (h : readStatus m r = 0) :
    ∃ ws : List Word, ws.length = m ∧ r = .bytes (triples ws) := by
  cases r with
  | nack => exact absurd h (by decide : (0x0812 : Word) ≠ 0)
  | ioerr => exact absurd h (by decide : (0x0822 : Word) ≠ 0)
  | bytes bs =>
    by_cases hl : bs.length = 3 * m
    · have hg : ∀ i < m, badTriple bs i = false := by
        cases hf : (List.range m).find? (badTriple bs) with
        | none => exact fun i hi => by simpa using List.find?_eq_none.1 hf i (List.mem_range.2 hi)
        | some i =>
          obtain ⟨hb, hi, hlow⟩ := List.find?_range_eq_some.1 hf
          have hi : i < m := List.mem_range.1 hi
          rw [readStatus_bytes hl hi hb fun j hj => by simpa using hlow j hj, ← statusOf_crcMismatch (by omega)] at h
          exact absurd h (statusOf_ne_zero _)
      exact ⟨(List.range m).map (responseWord bs), by simp, by rw [← triples_of_good m bs hl hg]⟩
    · exact absurd h (by rw [readStatus, if_pos hl]; decide)

/-- What R157 compares of two requests: `u` ends as `t` does, but for `KIND` after an error. -/
structure SameEnd (t u : State) : Prop where
  response : hostResponse u = hostResponse t
  phase : u.phase = t.phase
  session : { u.session with kind := t.kind } = t.session
  kind : t.status = 0 → u.kind = t.kind

theorem sameEnd_of_completed {t u : State} {ws : List Word} {x : Session} (ht : completed t ws x) (hu : completed u ws x) :
    SameEnd t u := by
  obtain ⟨tr, tse, -⟩ := ht
  obtain ⟨ur, use, -⟩ := hu
  have hse : u.session = t.session := use.trans tse.symm
  exact ⟨ur.trans tr.symm, congrArg Session.phase hse, by rw [hse]; rfl, fun _ => congrArg Session.kind hse⟩

theorem sameEnd_of_failed {t u : State} {st : Word} {x : Session} {k : Kind} (hst : st ≠ 0)
    (ht : failed t st { x with kind := k }) (hu : failed u st x) : SameEnd t u := by
  obtain ⟨tst, twc, tse, -⟩ := ht
  obtain ⟨ust, uwc, use, -⟩ := hu
  obtain ⟨tp, tk, -, -, -, -, tb⟩ := session_fields tse
  obtain ⟨up, -, -, -, -, -, ub⟩ := session_fields use
  refine ⟨?_, up.trans tp.symm, by rw [use, tk, tse], fun h => absurd (tst.symm.trans h) hst⟩
  unfold hostResponse
  rw [tst, ust, twc, uwc, ub.trans tb.symm]
  rfl

/-- The calls of the split pair are those of the blocking read but for the sleeps. -/
theorem calls_but_sleeps {s t u : State} {w e : Event} {slept : List Event} {readAt : Nat} {addr : BitVec 7} {n : Nat}
    {r : ReadResult}
    (hw : w.isSleep = false) (hs : ∀ e ∈ slept, e.isSleep = true)
    (ht : t.env.trace = s.env.trace ++ [w] ++ slept ++ [⟨readAt, .read, .read addr n r⟩])
    (hu : u.env.trace = s.env.trace ++ [w] ++ [e]) (he : e.call = .read addr n r) :
    (newEvents s u).map Event.call = ((newEvents s t).filter fun e => !e.isSleep).map Event.call := by
  rw [newEvents_of_trace (es := [w] ++ [e]) (by rw [hu, List.append_assoc]),
    newEvents_of_trace (es := [w] ++ slept ++ [⟨readAt, .read, .read addr n r⟩]) (by rw [ht]; simp)]
  have hnil : slept.filter (fun e => !e.isSleep) = [] := List.filter_eq_nil_iff.2 fun e he => by simp [hs e he]
  have hread : (⟨readAt, .read, .read addr n r⟩ : Event).isSleep = false := rfl
  simp [List.filter_append, hnil, hw, hread, he]

/-- A blocking read whose response has the two words it uses answers a next state, whatever the transport answers. -/
theorem exec_blocking_next {k : Kind} {s : State} (hp : s.phase = 2) (hc : countsAre s k.cmd 0 2) :
    ∃ t, exec k.blockingRequest s = .next t := by
  obtain ⟨s', hs, -, hx⟩ := exec_blocking hp hc.1
  obtain ⟨-, hcfg, -⟩ := hs.keeps
  exact ⟨_, hx.trans (settle_enough (Nat.le_of_eq (by rw [hcfg, hc.2])))⟩

/-- R157: with one answer to both reads, good or bad, the split read ends as the blocking read does. -/
theorem read_sameEnd {k : Kind} {s t m : State} {r : ReadResult} (hp : s.phase = 2) (hc : countsAre s k.cmd 0 2)
    (hw : writeAnswers s .ack) (hr : readAnswers s r) (hx : exec k.blockingRequest s = .next t)
    (hm : m.session = { s.session with phase := 3, kind := k })
    (hmr : readAnswers m r) (hover : waitElapsed m = true) : ∃ u, exec k.readRequest m = .next u ∧ SameEnd t u := by
  have hsame {t' : State} (ht : exec k.blockingRequest s = .next t') : t' = t := Host.Outcome.next.inj (ht.symm.trans hx)
  obtain ⟨mp, mk, -⟩ := session_fields hm
  have hmcfg : m.cfg = s.cfg := congrArg Session.cfg hm
  have hmn : (m.cfg.catalog.entry k.cmd).nResp.val = 2 := by rw [hmcfg]; exact hc.2
  have hread : ({ m.session with phase := 2 } : Session) = { s.session with phase := 2, kind := k } := by rw [hm]
  by_cases hst : readStatus 2 r = 0
  · obtain ⟨ws, hl, rfl⟩ := triples_of_readStatus (by decide) hst
    obtain ⟨w0, w1, rfl⟩ : ∃ w0 w1, ws = [w0, w1] := by
      match ws, hl with
      | [w0, w1], _ => exact ⟨w0, w1, rfl⟩
    obtain ⟨t', ht, hdone⟩ := exec_blocking_completes hp hc hw hr
    obtain ⟨u, hu, hudone, -⟩ := exec_read_completes mp mk hover hmn hmr
    have hblock : ({ s.session with kind := k } : Session) = { s.session with phase := 2, kind := k } := by rw [← hp]; rfl
    rw [hmcfg, hread] at hudone
    exact ⟨u, hu, hsame ht ▸ sameEnd_of_completed (hblock ▸ hdone) hudone⟩
  · obtain ⟨t', ht, htf⟩ := exec_blocking_fails hp hc.1 hw (by rw [hc.2]; decide) hr (by rw [hc.2]; exact hst)
    obtain ⟨u, hu, huf⟩ := exec_read_fails mp mk hover (by rw [hmn]; decide) hmr (by rw [hmn]; exact hst)
    rw [hc.2] at htf
    rw [hmn, hread] at huf
    exact ⟨u, hu, hsame ht ▸ sameEnd_of_failed hst htf huf⟩

/-- The state after some time in which the host is idle. -/
def idled (idle : Nat) (s : State) : State := { s with env := { s.env with now := s.env.now + idle } }

/-- Settles O42: `m` is the state after the split measure, and its clock runs on while the host is idle. -/
theorem blockingEqualsSplit : Obligations.BlockingEqualsSplit := by
  unfold Obligations.BlockingEqualsSplit
  intro k s r hp hc hw hr
  obtain ⟨t, hxt⟩ := exec_blocking_next hp hc
  obtain ⟨m, hxm, hm⟩ := exec_measure hp hc.1 hw
  refine ⟨t, m, hxt, hxm, fun idle hover => ?_⟩
  obtain ⟨-, hse, -⟩ := hm.done
  obtain ⟨hmp, hmk, -⟩ := session_fields hse
  have hcfg : (idled idle m).cfg = s.cfg := congrArg Session.cfg hse
  have hmr : readAnswers (idled idle m) r := (readAnswers_congr hm.reads).2 hr
  have hover : waitElapsed (idled idle m) = true := hover
  obtain ⟨u, hxu, hend⟩ := read_sameEnd hp hc hw hr hxt (m := idled idle m) hse hmr hover
  obtain ⟨-, hutr⟩ := exec_read_calls (s := idled idle m) hmp hmk hover (by rw [hcfg]; exact hc.2) hxu
  obtain ⟨-, -, slept, readAt, hsl, -, httr⟩ := exec_blocking_calls hp hc hw hr hxt
  refine ⟨u, hxu, hend.response, hend.phase, hend.session, hend.kind, ?_⟩
  rw [hcfg, nextRead_of_readAnswers hmr, show (idled idle m).env.trace = m.env.trace from rfl, hm.trace] at hutr
  exact calls_but_sleeps rfl (fun e he => (hsl e he).1) httr hutr rfl

end Sys2Proof.Machine
end
